-- ==== Sys2Proof/Word.lean ====
section
/-! DEFINITION. The words of the part and its fixed-size tables.
00_scope 4.5: a credential is a 48-bit number, a queue-net address, a ride label and a tag are 16-bit numbers. -/

namespace Sys2Proof

abbrev Byte := BitVec 8
/-- A queue-net address: 0 means "none", all ones is the broadcast address (00_scope 4.5). -/
abbrev Addr := BitVec 16
abbrev Label := BitVec 16
abbrev Tag := BitVec 16
abbrev Credential := BitVec 48

/-- A ride index, 0 to 47. -/
abbrev Ride := Fin 48
/-- An index of the reader table, 0 to 511. -/
abbrev ReaderIx := Fin 512
/-- An index of the board table, 0 to 63. -/
abbrev BoardIx := Fin 64
/-- A window profile number, 0 to 7. -/
abbrev ProfileIx := Fin 8

/-- An Ethernet frame, from the first byte of its destination address to the last byte before the frame check
sequence. -/
abbrev Frame := List Byte

/-- A table of `n` like entries. -/
abbrev Table (n : Nat) (α : Type) := Vector α n

/-- The entry of a table at an index. -/
def look {n : Nat} {α : Type} (t : Table n α) (i : Fin n) : α := t[i]

/-- A table with one entry replaced. -/
def put {n : Nat} {α : Type} (t : Table n α) (i : Fin n) (a : α) : Table n α := t.set i a

/-- A table with one entry changed by a function. -/
def upd {n : Nat} {α : Type} (t : Table n α) (i : Fin n) (f : α → α) : Table n α := put t i (f (look t i))

/-- The table whose entry at `i` is `f i`. -/
def tabulate {n : Nat} {α : Type} (f : Fin n → α) : Table n α := ⟨⟨List.ofFn f⟩, by simp⟩

/-- The table with the same entry everywhere. -/
def filled {α : Type} (n : Nat) (a : α) : Table n α := Vector.replicate n a

/-- A table with every entry changed by a function. -/
def tmap {n : Nat} {α β : Type} (f : α → β) (t : Table n α) : Table n β := tabulate fun i => f (look t i)

/-- The indices of a table, in rising order. -/
def indices (n : Nat) : List (Fin n) := List.finRange n

/-- An index from a number that may be out of range. -/
def index? (n : Nat) (v : Nat) : Option (Fin n) := if h : v < n then some ⟨v, h⟩ else none

/-- The quotient rounded up (00_scope 4.4); 0 where the divisor is 0. -/
def ceilDiv (a b : Nat) : Nat := (a + b - 1) / b

/-- The first member of a list for which `p` holds, and the list without it. -/
def takeFirst {α : Type} (p : α → Bool) : List α → Option (α × List α)
  | [] => none
  | a :: as =>
    if p a then some (a, as)
    else match takeFirst p as with
      | some (b, bs) => some (b, a :: bs)
      | none => none

end Sys2Proof
end

