-- ==== Sys2Proof/Config.lean ====
section
/-! DEFINITION. The sizes and limits that the spec fixes for the part. There is no free value: the spec calls no
value undefined (INVENTORY, "What the manual leaves open"). -/

namespace Sys2Proof.Config

/-- R161: frames a receive buffer holds. -/
def rxPlaces : Nat := 16
/-- R167: frames a relay queue holds. -/
def relayPlaces : Nat := 128
/-- R168: frames a part output queue holds. -/
def partPlaces : Nat := 128
/-- R168, R181: the length of the FIELD part output queue from which no board frame is produced. -/
def boardLimit : Nat := 96
/-- R170: entries the field intake holds. -/
def fieldPlaces : Nat := 256
/-- R171: entries the management intake holds. -/
def mgmtPlaces : Nat := 16
/-- R78: requests the kiosk queue holds. -/
def kioskPlaces : Nat := 32
/-- R78: requests the remote queue holds. -/
def remotePlaces : Nat := 64
/-- R88: requests the held list holds. -/
def heldPlaces : Nat := 8
/-- R61: records the Guest Table holds. -/
def guestPlaces : Nat := 65536
/-- R66: the record count at which GUEST_HIGH is set. -/
def guestHigh : Nat := 58983
/-- R30: the greatest pass credit. -/
def creditMax : Nat := 1000
/-- R106, R130, R137, R189: where a per-ride count stays. -/
def countMax : Nat := 16777215
/-- R139, R149, R150: where a bucket or an exceed count stays. -/
def bucketMax : Nat := 65535
/-- R134: marks a tally holds. -/
def markPlaces : Nat := 256
/-- R134: the greatest count of a mark. -/
def markMax : Nat := 255
/-- R40: the greatest capacity of a window. -/
def capacityMax : Nat := 400
/-- R2: the seconds of a day. -/
def daySeconds : Nat := 86400
/-- R177: where a board's spacing count and refresh count stay. -/
def boardCountMax : Nat := 120
/-- R177: the least spacing count at which a frame may be written. -/
def boardSpacing : Nat := 2
/-- R84: where the run counter stays. -/
def runMax : Nat := 15

end Sys2Proof.Config
end

