-- ==== Sys2Proof/Syntax.lean ====
section
/-! DEFINITION. The commands of the part: one constructor for each row of spec/opcode_table.json.
The rows carry no operands. An operand here is what comes from outside (a strap value, a port, a frame), or it
says which of several events that the spec leaves unordered is taken (log 3, log 5, log 18). A management
command and a field message have no operand: they are taken from the head of their intake, where their fields
stand (R97, R184, log 6). -/

namespace Sys2Proof

/-- The two Ethernet ports (00_scope 1.2). -/
inductive Port where
  | field | trunk
deriving DecidableEq, Repr

/-- The twelve notice flags, in the order of section 12.4. -/
inductive Flag where
  | rideDown | rideSuspect | attrExceeded | walkIdle | guestHigh | guestFull | intakeOverflow | relayDrop
  | tallySaturated | checkDone | phaseChanged | badMessage
deriving DecidableEq, Repr

/-- A frame as a port's physical layer hands it over: its bytes without the frame check sequence, whether that
sequence was good, and whether the frame was received whole (R161, log 10). -/
structure RxFrame where
  bytes : Frame
  goodCheck : Bool
  whole : Bool
deriving DecidableEq, Repr

/-- What a second of the clock may bring, each an event of its owning block (R2, R49). The midnight wrap is none of them:
it is the passing from 23:59:59 to 00:00:00 itself (R6). -/
inductive Boundary where
  | openMinute
  | lastCall
  | earlyRedemption (ride : Ride) (window : Nat)
  | windowEnd (ride : Ride) (window : Nat)
  | closing (ride : Ride) (window : Nat)
  | historyRotation
  | postingTick
  | gapExpiry (ride : Ride)
  | holdExpiry
  | spacingEnd (board : BoardIx)
  | refresh (board : BoardIx)
deriving DecidableEq, Repr

/-- The commands, in the table's order. -/
inductive Instr where
  | powerOn (strap : Addr)
  | lineReset (strap : Addr)
  | linkStateChange (port : Port) (up : Bool)
  | frameReceived (port : Port) (frame : RxFrame)
  | classifyFrame (port : Port)
  | queueFullWrite (port : Port)
  | transmissionStart (port : Port)
  | transmissionEnd (port : Port)
  | clockAdvance
  | openMinuteBoundary
  | lastCallBoundary
  | midnightWrap
  | earlyRedemptionTime (ride : Ride) (window : Nat)
  | windowEnd (ride : Ride) (window : Nat)
  | closingTime (ride : Ride) (window : Nat)
  | postingTick
  | dispatchHistoryRotation
  | gapTimerExpiry (ride : Ride)
  | holdExpiry
  | boardSpacingEnd (board : BoardIx)
  | boardRefresh (board : BoardIx)
  | statusReadPart
  | statusReadRide
  | statusReadBoard
  | tableRead
  /-- `order`: the boards a write of a RIDE_LABEL reaches first (R181). -/
  | tableWrite (order : List BoardIx)
  | dayOpen
  | checkComplete
  | phaseSet
  | dayClose
  | clockSet
  /-- `orders`: for each second trimmed, the boundaries taken first at it (R49, log 5). -/
  | clockTrim (orders : List (List Boundary))
  | rideOverride
  | boardMode
  | noticeSet
  | noticeClear
  | countsRead
  | calendarRead
  | guestReadExact
  | guestReadNext
  | passRevoke
  | softReset
  | softResetAction
  | mgmtReplyWrite
  | noticeWrite
  | noticeFlagSet (flag : Flag)
  | tap
  | verdictWrite
  | dispatch
  | rideStatus
  | creditAddition (ride : Ride)
  /-- `position`: which of the outstanding standby hand-offs is taken; no order among them is defined (R140). -/
  | standbyHandoff (position : Nat)
  | dispatchHandoff (ride : Ride)
  | dispatchRecord (ride : Ride)
  | evaluation (ride : Ride)
  | recomputation (ride : Ride)
  | calendarStateHandoff (ride : Ride)
  | tallyStateHandoff (ride : Ride)
  /-- `order`: the boards the change reaches first (R181). -/
  | boardStateHandoff (ride : Ride) (order : List BoardIx)
  /-- `order`: the boards the change reaches first (R181). -/
  | postedValueHandoff (ride : Ride) (order : List BoardIx)
  | workItemHandoff (ride : Ride) (window : Nat)
  | displaceStep
  | expireStep
  | passChangeWrite
  | endOfDisplacement (ride : Ride)
  | lastCallRelease
  | passRequest
  | heldServe
  | passCancel
  | passList
  | passReplyWrite
  | resetNAsserted
deriving DecidableEq, Repr

end Sys2Proof
end

