-- ==== Sys2Proof/WellFormed.lean ====
section
/-! DEFINITION. Which commands are well formed. Rides, boards, ports and flags are in range by their types; what
is left to check is that a window index is one of 0 to 95 (section 3.2), that an order of boards or boundaries
names each at most once, and that a trim has orders for at most 59 seconds (R4). The machine is total: an ill-formed
command finds no event to take, or its surplus names are passed over. -/

namespace Sys2Proof

/-- No member of the list stands in it twice. -/
def noRepeats {α : Type} [DecidableEq α] : List α → Bool
  | [] => true
  | a :: as => !as.contains a && noRepeats as

/-- Section 3.2: window indices run from 0 to 95. -/
def windowInRange (window : Nat) : Bool := decide (window < 96)

/-- A boundary that names a window names one that can exist. -/
def Boundary.wellFormed : Boundary → Bool
  | .earlyRedemption _ k => windowInRange k
  | .windowEnd _ k => windowInRange k
  | .closing _ k => windowInRange k
  | .openMinute => true
  | .lastCall => true
  | .historyRotation => true
  | .postingTick => true
  | .gapExpiry _ => true
  | .holdExpiry => true
  | .spacingEnd _ => true
  | .refresh _ => true

/-- R4: a forward trim passes at most 59 seconds. -/
def trimOrdersOk (orders : List (List Boundary)) : Bool :=
  decide (orders.length ≤ 59) && orders.all fun o => noRepeats o && o.all Boundary.wellFormed

/-- The check of a command's operands. -/
def wellFormed : Instr → Bool
  | .powerOn _ => true
  | .lineReset _ => true
  | .linkStateChange _ _ => true
  | .frameReceived _ _ => true
  | .classifyFrame _ => true
  | .queueFullWrite _ => true
  | .transmissionStart _ => true
  | .transmissionEnd _ => true
  | .clockAdvance => true
  | .openMinuteBoundary => true
  | .lastCallBoundary => true
  | .midnightWrap => true
  | .earlyRedemptionTime _ k => windowInRange k
  | .windowEnd _ k => windowInRange k
  | .closingTime _ k => windowInRange k
  | .postingTick => true
  | .dispatchHistoryRotation => true
  | .gapTimerExpiry _ => true
  | .holdExpiry => true
  | .boardSpacingEnd _ => true
  | .boardRefresh _ => true
  | .statusReadPart => true
  | .statusReadRide => true
  | .statusReadBoard => true
  | .tableRead => true
  | .tableWrite order => noRepeats order
  | .dayOpen => true
  | .checkComplete => true
  | .phaseSet => true
  | .dayClose => true
  | .clockSet => true
  | .clockTrim orders => trimOrdersOk orders
  | .rideOverride => true
  | .boardMode => true
  | .noticeSet => true
  | .noticeClear => true
  | .countsRead => true
  | .calendarRead => true
  | .guestReadExact => true
  | .guestReadNext => true
  | .passRevoke => true
  | .softReset => true
  | .softResetAction => true
  | .mgmtReplyWrite => true
  | .noticeWrite => true
  | .noticeFlagSet _ => true
  | .tap => true
  | .verdictWrite => true
  | .dispatch => true
  | .rideStatus => true
  | .creditAddition _ => true
  | .standbyHandoff _ => true
  | .dispatchHandoff _ => true
  | .dispatchRecord _ => true
  | .evaluation _ => true
  | .recomputation _ => true
  | .calendarStateHandoff _ => true
  | .tallyStateHandoff _ => true
  | .boardStateHandoff _ order => noRepeats order
  | .postedValueHandoff _ order => noRepeats order
  | .workItemHandoff _ k => windowInRange k
  | .displaceStep => true
  | .expireStep => true
  | .passChangeWrite => true
  | .endOfDisplacement _ => true
  | .lastCallRelease => true
  | .passRequest => true
  | .heldServe => true
  | .passCancel => true
  | .passList => true
  | .passReplyWrite => true
  | .resetNAsserted => true

end Sys2Proof
end

