-- ==== Sys2Proof/Machine/State.lean ====
section
/-! DEFINITION. The state of the part, block by block (00_scope 2.1), as plain data, and its value after power-on. -/

namespace Sys2Proof.Machine

/-! ## The Day Controller (chapter 1) -/

/-- R1: the day phase, in forward order. -/
inductive Phase where
  | night | checking | preopen | opened | lastCall
deriving DecidableEq, Repr

/-- R17. -/
inductive ArbiterMode where
  | fixed | share
deriving DecidableEq, Repr

/-- R17: the park settings record, with its defaults. -/
structure ParkSettings where
  passesPerGuest : Nat := 2
  openMinute : Nat := 540
  lastCallMinute : Nat := 1320
  arbiterMode : ArbiterMode := .share
  runLimit : Nat := 4
  holdLimit : Nat := 5
  gatewayAddress : Addr := 0
  noticeTarget : Addr := 0
deriving DecidableEq, Repr

/-- R9. -/
inductive CheckOutcome where
  | none | passed | failed | aborted
deriving DecidableEq, Repr

/-- R8: the codes of the opening check, in the order of its table. -/
inductive CheckCode where
  | dayTimes | profileInvalid | profileOverrun | rideBadProfile | controllerDup | labelDup | noRide | readerDup
  | readerBadRide | boardBadRange
deriving DecidableEq, Repr

/-- R202: the five loaded tables. -/
inductive TableId where
  | park | profile | ride | reader | board
deriving DecidableEq, Repr

/-- R9: the check result record; `none` is NONE. -/
structure CheckRecord where
  outcome : CheckOutcome := .none
  firstCode : Option CheckCode := none
  firstTable : Option TableId := none
  firstIndex : Nat := 0
  failureCount : Nat := 0
deriving DecidableEq, Repr

/-- A set of notice flags, bit `i` for the `i`-th flag of section 12.4 (section 13.3). -/
abbrev FlagSet := BitVec 12

structure DayController where
  park : ParkSettings := {}
  /-- R17: the notice enable set. -/
  enableSet : FlagSet := 0
  phase : Phase := .night
  /-- R2: seconds of day, `none` while UNSET. -/
  clock : Option Nat := none
  check : CheckRecord := {}
  /-- The boundaries of the second the clock stands at that are not yet taken (log 5). -/
  due : List Boundary := []
deriving DecidableEq, Repr

/-! ## The Ride State Unit (chapter 2) -/

/-- Section 2.1: the fields that bear on window capacity. -/
structure CapacityFields where
  hourlyCapacity : Nat := 0
  passShare : Nat := 0
  reserveShare : Nat := 0
  overbookCap : Nat := 0
  throttleStep : Nat := 0
  derateFloor : Nat := 100
  throughputThreshold : Nat := 0
  noshowThreshold : Nat := 0
  mergeloadThreshold : Nat := 0
deriving DecidableEq, Repr

inductive DisplacePolicy where
  | shift | flex
deriving DecidableEq, Repr

/-- R143. -/
inductive PostingCurve where
  | exact | fives | padded | bands
deriving DecidableEq, Repr

/-- Section 2.1: an entry of the ride table, with its defaults. -/
structure RideEntry where
  label : Label := 0
  enabled : Bool := false
  controllerAddress : Addr := 0
  profile : ProfileIx := 0
  /-- R19: the values last written to the capacity fields. -/
  written : CapacityFields := {}
  /-- R19: the values of the capacity fields in effect. -/
  inEffect : CapacityFields := {}
  displacePolicy : DisplacePolicy := .shift
  gapLimit : Nat := 0
  postingCurve : PostingCurve := .exact
  controllerRelay : Bool := false
deriving DecidableEq, Repr

/-- R21. -/
inductive RideState where
  | off | closed | up | suspect | down
deriving DecidableEq, Repr

/-- R26. -/
structure GapTimer where
  running : Bool := false
  limit : Nat := 0
  elapsed : Nat := 0
deriving DecidableEq, Repr

/-- What the Ride State Unit keeps of a ride beside its table entry. -/
structure RideRun where
  state : RideState := .off
  timer : GapTimer := {}
  /-- R30: the pass credit. -/
  credit : Nat := 0
deriving DecidableEq, Repr

/-! ## The Calendar (chapter 3) -/

/-- R36. -/
structure Profile where
  windowLength : Nat := 0
  firstStart : Nat := 0
  windowCount : Nat := 0
  lead : Nat := 0
  early : Nat := 0
  late : Nat := 0
deriving DecidableEq, Repr

/-- Section 3.4. -/
inductive WindowState where
  | future | redeemable | past | lost
deriving DecidableEq, Repr

/-- R56, R57: an entry of a holder list or of a flex list. -/
structure Holder where
  credential : Credential
  party : Nat
deriving DecidableEq, Repr

/-- Section 3.2: a window record. RIDE and INDEX are its place in the Calendar's tables. -/
structure Window where
  start : Nat
  stop : Nat
  state : WindowState
  ended : Bool
  /-- C, the capacity. -/
  capacity : Nat
  /-- L, the regular limit. -/
  limit : Nat
  /-- T, booked. -/
  booked : Nat := 0
  held : Nat := 0
  redeemed : Nat := 0
  expired : Nat := 0
  movedOut : Nat := 0
  holders : List Holder := []
deriving DecidableEq, Repr

structure Calendar where
  profiles : Table 8 Profile
  /-- Each ride's windows, by window index. -/
  windows : Table 48 (List Window)
  flex : Table 48 (List Holder)
deriving DecidableEq, Repr

/-! ## The Guest Table (chapter 4) -/

/-- R62: the WINDOW field of a pass record. -/
inductive PassPlace where
  | window (index : Nat) | flex
deriving DecidableEq, Repr

/-- R62: ORIGIN; also the two request queues of R78. -/
inductive Origin where
  | kiosk | remote
deriving DecidableEq, Repr

structure Pass where
  ride : Ride
  party : Nat
  place : PassPlace
  moves : Nat
  origin : Origin
  grantMinute : Nat
deriving DecidableEq, Repr

structure Guest where
  credential : Credential
  passes : List Pass
deriving DecidableEq, Repr

/-! ## Messages -/

/-- The fields of a request as received (R78, R199, R200). -/
inductive RequestBody where
  | pass (credential : Credential) (party count : Nat) (labels : List Label) (earliest latest : Option Nat)
  | cancel (credential : Credential) (label : Label)
  | list (credential : Credential)
deriving DecidableEq, Repr

/-- R78: an entry of a request queue. The port it arrived on fixes its queue, its reply's port and its ORIGIN. -/
structure Request where
  port : Port
  source : Addr
  tag : Tag
  body : RequestBody
deriving DecidableEq, Repr

/-- R165. -/
inductive ClaimMode where
  | forward | observe | own | ownCopy
deriving DecidableEq, Repr

/-- The claim modes under which a TAP enters the field intake (R163). -/
inductive ActedMode where
  | observe | own | ownCopy
deriving DecidableEq, Repr

/-- The fields of an acted frame (R170, R200). -/
inductive FieldBody where
  | tap (reader : ReaderIx) (mode : ActedMode) (credential : Credential) (headCount : Nat) (tag : Tag)
  | dispatch (riders : Nat)
  | rideStatus (code : Nat)
deriving DecidableEq, Repr

/-- R170: an entry of the field intake; `time` is `none` when it was sorted while the clock was UNSET. -/
structure FieldEntry where
  source : Addr
  time : Option Nat
  body : FieldBody
deriving DecidableEq, Repr

/-- R201: a management command with its fields as received. -/
inductive MgmtCommand where
  | statusRead (sect index : Nat)
  | tableRead (table index : Nat) (fields : List Nat)
  | tableWrite (table index : Nat) (items : List (Nat × Nat))
  | dayOpen
  | phaseSet (code : Nat)
  | dayClose
  | clockSet (hours minutes seconds : Nat)
  | clockTrim (seconds : Int)
  | rideOverride (ride state : Nat)
  | boardMode (board mode : Nat)
  | noticeSet (flags : BitVec 16) (target : Addr)
  | noticeClear (flags : BitVec 16)
  | countsRead (first count : Nat)
  | calendarRead (ride first count : Nat)
  | guestRead (mode : Nat) (credential : Credential)
  | passRevoke (ride : Nat) (credential : Credential)
  | softReset
deriving DecidableEq, Repr

/-- R171: an entry of the management intake. -/
structure MgmtEntry where
  source : Addr
  sequence : BitVec 16
  command : MgmtCommand
deriving DecidableEq, Repr

/-- R104. -/
inductive VerdictResult where
  | admitStandby | admitPass | admitFlex | refuseNoPass | refuseEarly | refuseExpired | refuseRideDown
  | refuseRideClosed | refuseParkClosed | refuseBadCredential
deriving DecidableEq, Repr

/-- R93. -/
inductive Reason where
  | unknownRide | ridePaused | rideDown | rideClosed | duplicate | limit | tableFull | soldOut
deriving DecidableEq, Repr

/-- R70: the window state of a listed pass. -/
inductive ListedState where
  | future | redeemable | past | lost | flex
deriving DecidableEq, Repr

structure ListedPass where
  label : Label
  party : Nat
  state : ListedState
  /-- Start and end minute; absent when FLEX. -/
  span : Option (Nat × Nat)
deriving DecidableEq, Repr

/-- R93, R70, R71: the results of a PASS_REPLY. -/
inductive PassResult where
  | grant (label : Label) (party start stop : Nat) (earlier : List Reason)
  | refused (reasons : List Reason)
  | retry
  | queueFull
  | phaseClosed
  | badRequest
  | listed (passes : List ListedPass)
  /-- `start` is `none` for FLEX. -/
  | cancelled (label : Label) (party : Nat) (start : Option Nat)
  | notFound
deriving DecidableEq, Repr

/-- R121. -/
inductive ChangeReason where
  | shifted | flexed | expired
deriving DecidableEq, Repr

/-- R145, R175: a posted value, and a held value of the Board Composer. -/
inductive Posted where
  | wait (minutes : Nat) | over | paused | down | closed | off
deriving DecidableEq, Repr

/-- R176: an entry of a board frame. -/
structure BoardLine where
  label : Label
  value : Posted
  alert : Bool
deriving DecidableEq, Repr

/-- R176: the content of a board frame. -/
inductive BoardContent where
  | blank | lines (entries : List BoardLine)
deriving DecidableEq, Repr

/-- R185. -/
inductive MgmtResult where
  | done | accepted | busy | locked | refusedPhase | badIndex | badValue | notFound | clockUnset
deriving DecidableEq, Repr

/-- A message the part originates (R168). The reply fields of a MGMT_REPLY stand as the bytes of R203. -/
inductive OutMessage where
  | verdict (label : Label) (result : VerdictResult) (party minutes : Option Nat) (tag : Tag)
  | passReply (tag : Tag) (result : PassResult)
  | passChange (credential : Credential) (label : Label) (party : Nat) (reason : ChangeReason) (oldStart : Nat)
      (target : Option (Nat × Nat)) (moves : Nat)
  | boardFrame (content : BoardContent)
  | notice (flags : FlagSet)
  | mgmtReply (code : Nat) (result : MgmtResult) (sequence : BitVec 16) (ignored : Bool) (fields : List Byte)
deriving DecidableEq, Repr

/-- A frame the part produces: its queue-net destination and its message. Its source is the node address (R197). -/
structure PartFrame where
  destination : Addr
  message : OutMessage
deriving DecidableEq, Repr

/-! ## The ports and intakes (chapter 10) -/

/-- R165. -/
inductive Role where
  | standbyEntry | passMerge
deriving DecidableEq, Repr

/-- R165: an entry of the reader table, with its defaults. -/
structure Reader where
  address : Addr := 0
  ride : Ride := 0
  role : Role := .standbyEntry
  claimMode : ClaimMode := .forward
  used : Bool := false
deriving DecidableEq, Repr

/-- The producers that can wait on a part output queue (R79, R80, R113, R122, R184). -/
inductive Producer where
  | admission | passEngine | requestIntake | walker | management
deriving DecidableEq, Repr

/-- R169: the next preference of an egress arbiter. -/
inductive Preference where
  | relay | part
deriving DecidableEq, Repr

/-- One port with its Classifier, its request queue's intake and its egress arbiter. -/
structure PortState where
  receiveBuffer : List Frame := []
  /-- R172: the request the waiting Classifier holds. -/
  heldRequest : Option Request := none
  /-- R79: the QUEUE_FULL reply that the intake of the port's request queue waits to write. -/
  fullReply : Option PartFrame := none
  /-- R167: the frames that are to leave from this port. -/
  relayQueue : List Frame := []
  /-- R168. -/
  partQueue : List PartFrame := []
  /-- R168: the producers waiting on the part output queue, the one that began first at the head. -/
  waiters : List Producer := []
  nextPreference : Preference := .relay
  /-- The frame in transmission, as bytes on the wire. -/
  transmitting : Option Frame := none
  /-- Whether the physical layer reports the link up. -/
  linkUp : Bool := false
deriving DecidableEq, Repr

/-! ## The Pass Engine (chapter 5) -/

/-- R88: an entry of the held list. -/
structure HeldEntry where
  request : Request
  /-- The ride it waits for. -/
  ride : Ride
  elapsed : Nat
  servable : Bool
  /-- It reached HOLD_LIMIT at an advance of the clock, and its expiry is not yet taken (log 13). -/
  expiring : Bool
deriving DecidableEq, Repr

structure PassEngine where
  kiosk : List Request := []
  remote : List Request := []
  heldList : List HeldEntry := []
  /-- R84: the last queue, `none` for NONE, and the run. -/
  lastQueue : Option Origin := none
  run : Nat := 0
  /-- Replies waiting for room, in the order in which they are to be written (R80, R15). -/
  outbox : List (Port × PartFrame) := []
deriving DecidableEq, Repr

/-- The Admission Unit (chapter 6): the verdict and the copy that wait to be written (R113). -/
structure AdmissionUnit where
  outbox : List (Port × PartFrame) := []
deriving DecidableEq, Repr

/-! ## The Calendar Walker (chapter 7) -/

inductive WorkKind where
  | displace | expire
deriving DecidableEq, Repr

/-- R114: a work item. -/
structure WorkItem where
  ride : Ride
  window : Nat
  kind : WorkKind
deriving DecidableEq, Repr

structure Walker where
  workList : List WorkItem := []
  item : Option WorkItem := none
  displacing : Table 48 Nat := filled 48 0
  /-- R122: the PASS_CHANGE waiting to be written. -/
  waiting : Option PartFrame := none
  /-- A day close was taken while the Walker was WAITING (R132, log 14). -/
  abandoned : Bool := false
deriving DecidableEq, Repr

/-! ## The Standby Tally Unit (chapter 8) -/

/-- R134. -/
structure Mark where
  entry : Nat
  count : Nat
deriving DecidableEq, Repr

/-- R138. -/
structure ObservedWait where
  minutes : Nat
  observedAt : Nat
deriving DecidableEq, Repr

/-- R133: the tally of a ride. -/
structure Tally where
  /-- The oldest mark at the head. -/
  marks : List Mark := []
  saturated : Bool := false
  /-- R139: the 15 buckets, the NEWEST at the head. -/
  buckets : List Nat := List.replicate 15 0
  newestMinute : Nat := 0
  lastObserved : Option ObservedWait := none
  estimate : Nat := 0
  posted : Posted := .off
deriving DecidableEq, Repr

/-! ## The Condition Monitor (chapter 9) -/

/-- R149: a bucket of the dispatch history. -/
structure DispatchBucket where
  dispatched : Nat := 0
  passes : Nat := 0
deriving DecidableEq, Repr

/-- R149, R155: an attribute record. -/
structure AttributeRecord where
  current : Option Nat := none
  worst : Option Nat := none
  exceeded : Bool := false
  exceedCount : Nat := 0
deriving DecidableEq, Repr

/-- R149: what the Condition Monitor holds of a ride. -/
structure Monitor where
  /-- R150: the 16 buckets, the NEWEST at the head. -/
  buckets : List DispatchBucket := List.replicate 16 {}
  newestMinute : Nat := 0
  throughput : AttributeRecord := {}
  noShow : AttributeRecord := {}
  mergeLoad : AttributeRecord := {}
  derate : Nat := 100
  overbook : Nat := 0
  throttle : Nat := 0
  evaluations : Nat := 0
  /-- Window index and end minute of the last evaluation. -/
  lastEvaluation : Option (Nat × Nat) := none
deriving DecidableEq, Repr

/-! ## The Board Composer (chapter 11) -/

/-- R174: an entry of the board table, with its defaults. -/
structure BoardEntry where
  address : Addr := 0
  firstRide : Nat := 0
  rideCount : Nat := 1
  refreshPeriod : Nat := 30
  alertMinutes : Nat := 0
deriving DecidableEq, Repr

inductive BoardModeKind where
  | live | hold | blank
deriving DecidableEq, Repr

/-- R177: the state of a board; `spacing` is `none` for NONE. -/
structure Board where
  mode : BoardModeKind := .blank
  lastSent : Option BoardContent := none
  frozen : Option BoardContent := none
  spacing : Option Nat := none
  refresh : Nat := 0
  pending : Bool := false
  deferred : Bool := false
deriving DecidableEq, Repr

/-! ## The Management Unit (chapter 12) -/

/-- R189: the twelve counts of a ride. -/
structure RideCounts where
  standbyAdmitted : Nat := 0
  standbyRefused : Nat := 0
  mergeAdmitted : Nat := 0
  mergeRefused : Nat := 0
  granted : Nat := 0
  refused : Nat := 0
  cancelled : Nat := 0
  shifted : Nat := 0
  flexed : Nat := 0
  expired : Nat := 0
  dispatchedRiders : Nat := 0
  unseenBoarders : Nat := 0
deriving DecidableEq, Repr

/-- R194: how far a SOFT_RESET has come. -/
inductive SoftResetStage where
  | none
  /-- Its reply has not yet begun to leave the TRUNK port. -/
  | replyPending
  /-- Its reply is in transmission. -/
  | replySending
  /-- Its reply has left; the reset is to act. -/
  | due
deriving DecidableEq, Repr

structure Management where
  flags : FlagSet := 0
  hold : Bool := false
  counts : Table 48 RideCounts := filled 48 {}
  /-- MGMT_REPLY and NOTICE waiting to be written, in order (R184, R193). -/
  outbox : List (Port × PartFrame) := []
  softReset : SoftResetStage := .none
deriving DecidableEq, Repr

/-! ## Outstanding hand-offs (log 3) -/

/-- R100, R135. -/
structure StandbyHandoff where
  ride : Ride
  headCount : Nat
  time : Nat
deriving DecidableEq, Repr

/-- R33, R137. -/
structure DispatchHandoff where
  ride : Ride
  standbyPart : Nat
  time : Nat
deriving DecidableEq, Repr

/-- R33, R150. -/
structure DispatchRecord where
  ride : Ride
  time : Nat
  riders : Nat
  passPart : Nat
deriving DecidableEq, Repr

/-- R42, R151. -/
structure EvaluationHandoff where
  ride : Ride
  window : Nat
  stop : Nat
deriving DecidableEq, Repr

/-- R158: a recomputation claim. -/
structure RecomputationClaim where
  ride : Ride
  derate : Nat
  overbook : Nat
  throttle : Nat
  fields : CapacityFields
deriving DecidableEq, Repr

/-- The hand-offs that a block has made and the receiving block has not yet taken, oldest first. -/
structure Handoffs where
  flags : List Flag := []
  credits : List (Ride × Nat) := []
  standbys : List StandbyHandoff := []
  dispatches : List DispatchHandoff := []
  records : List DispatchRecord := []
  evaluations : List EvaluationHandoff := []
  recomputations : List RecomputationClaim := []
  calendarStates : List (Ride × RideState) := []
  tallyStates : List (Ride × RideState) := []
  /-- The Board Composer reads the ride's state itself (R175): the hand-off carries the ride alone. -/
  boardStates : List Ride := []
  posted : List (Ride × Posted) := []
  /-- The items of one event of the Calendar stand together, in window index order (R48). -/
  workItems : List (List WorkItem) := []
  displacementEnds : List Ride := []
  lastCalls : Nat := 0
deriving DecidableEq, Repr

/-! ## The part -/

/-- Why a step can stop with a fault: never. The spec describes no condition in which the part stops (INVENTORY,
"Faults"), so the type has no member. -/
inductive Fault where
deriving DecidableEq, Repr

/-- Why a command can be refused. -/
inductive Refusal where
  /-- Raised by the dispatcher for a command that has no meaning yet; safe. No command is left so. -/
  | notModelled (mnemonic : String)
deriving DecidableEq, Repr

/-- The whole state of the part, and the commands that wait. -/
structure State where
  /-- The commands waiting to be taken, first in, first out. -/
  pending : List Instr
  nodeAddress : Addr
  /-- RESET_N is asserted (low). -/
  resetLow : Bool
  fieldPort : PortState
  trunkPort : PortState
  readers : Table 512 Reader
  fieldIntake : List FieldEntry
  mgmtIntake : List MgmtEntry
  day : DayController
  rideTable : Table 48 RideEntry
  rides : Table 48 RideRun
  calendar : Calendar
  /-- R61: the guest records, by ascending credential. -/
  guests : List Guest
  engine : PassEngine
  admission : AdmissionUnit
  walker : Walker
  tallies : Table 48 Tally
  monitors : Table 48 Monitor
  boardTable : Table 64 BoardEntry
  boards : Table 64 Board
  /-- R175: the Board Composer's held values. -/
  heldValues : Table 48 Posted
  management : Management
  out : Handoffs
deriving DecidableEq, Repr

/-- The part after power-on (the power-on values of R1, R2, R9, R17, R18, R21, R26, R30, R36, R38, R57, R61, R96,
R97, R114, R133, R149, R165, R173, R174, R175, R177, R189, R195), with straps that give 0 (log 7), links not yet up
(log 8) and no command waiting. -/
def State.reset : State where
  pending := []
  nodeAddress := 0
  resetLow := false
  fieldPort := {}
  trunkPort := {}
  readers := filled 512 {}
  fieldIntake := []
  mgmtIntake := []
  day := {}
  rideTable := filled 48 {}
  rides := filled 48 {}
  calendar := { profiles := filled 8 {}, windows := filled 48 [], flex := filled 48 [] }
  guests := []
  engine := {}
  admission := {}
  walker := {}
  tallies := filled 48 {}
  monitors := filled 48 {}
  boardTable := filled 64 {}
  boards := filled 64 {}
  heldValues := filled 48 .off
  management := {}
  out := {}

end Sys2Proof.Machine
end

