-- ==== Sys2Proof/Machine/Flags.lean ====
section
/-! DEFINITION. Notice flags as a set (section 13.3), the hand-offs that set them (R190), and the per-ride counts of
the Management Unit (R189). -/

namespace Sys2Proof.Machine

/-- Section 13.3: the bit of a flag, in the order of the table of section 12.4. -/
def flagBit : Flag → Nat
  | .rideDown => 0
  | .rideSuspect => 1
  | .attrExceeded => 2
  | .walkIdle => 3
  | .guestHigh => 4
  | .guestFull => 5
  | .intakeOverflow => 6
  | .relayDrop => 7
  | .tallySaturated => 8
  | .checkDone => 9
  | .phaseChanged => 10
  | .badMessage => 11

/-- The set of one flag. -/
def flagOnly (f : Flag) : FlagSet := (1 : FlagSet) <<< flagBit f

def hasFlag (fs : FlagSet) (f : Flag) : Bool := fs.getLsbD (flagBit f)

/-- Setting a flag that is already set leaves it set (R190). -/
def withFlag (fs : FlagSet) (f : Flag) : FlagSet := fs ||| flagOnly f

/-- R192: every flag of `named` is cleared, whether or not it was set. -/
def withoutFlags (fs named : FlagSet) : FlagSet := fs &&& ~~~named

/-- Section 13.3: the twelve flags a two-byte flag set names; `none` where one of bits 12 to 15 is set. -/
def flagsOfWord (w : BitVec 16) : Option FlagSet :=
  if w.toNat < 4096 then some (w.setWidth 12) else none

/-- R190: a block hands the Management Unit the setting of a flag. -/
def raise (f : Flag) (s : State) : State :=
  { s with out := { s.out with flags := s.out.flags ++ [f] } }

/-- R106, R130, R137, R189: a count rises and stays at 16,777,215. -/
def countUp (n by_ : Nat) : Nat := min Config.countMax (n + by_)

/-- The counts of a ride changed. -/
def changeCounts (r : Ride) (f : RideCounts → RideCounts) (s : State) : State :=
  { s with management := { s.management with counts := upd s.management.counts r f } }

end Sys2Proof.Machine
end

