-- ==== Sys2Proof/Machine/Ops.lean ====
section
/-! DEFINITION. The operations that several blocks share: taking an event, the ports and the part output queues,
the clock's readings, the lookups of R20 and R165, the change of phase and the change of ride state. -/

namespace Sys2Proof.Machine

/-- What a command answers. -/
abbrev Result := Host.Outcome State Fault Refusal

/-- A command takes its event. While RESET_N is asserted no block takes one (R161, R173, R195, log 9). -/
def event (f : State → State) (s : State) : Result := .next (if s.resetLow then s else f s)

/-! ## Ports -/

def otherPort : Port → Port
  | .field => .trunk
  | .trunk => .field

def portOf (s : State) : Port → PortState
  | .field => s.fieldPort
  | .trunk => s.trunkPort

def setPort (s : State) (p : Port) (ps : PortState) : State :=
  match p with
  | .field => { s with fieldPort := ps }
  | .trunk => { s with trunkPort := ps }

/-! ## The part output queues (R168, log 11) -/

/-- A producer that is not waiting may write: there is a place beyond one for each producer that waits (log 11). -/
def hasRoom (ps : PortState) : Bool := decide (ps.partQueue.length + ps.waiters.length < Config.partPlaces)

/-- A waiting producer may write: the queue has room, and the producer began waiting before every other. The others
wait on, however many places are free, until it has written (R168). -/
def hasTurn (ps : PortState) (who : Producer) : Bool :=
  ps.waiters.head? == some who && decide (ps.partQueue.length < Config.partPlaces)

/-- A frame joins the tail of a part output queue. -/
def writeFrame (p : Port) (f : PartFrame) (s : State) : State :=
  let ps := portOf s p
  setPort s p { ps with partQueue := ps.partQueue ++ [f] }

/-- A producer begins to wait for room. -/
def beginWait (p : Port) (who : Producer) (s : State) : State :=
  let ps := portOf s p
  setPort s p { ps with waiters := ps.waiters ++ [who] }

/-- A producer no longer waits. -/
def endWait (p : Port) (who : Producer) (s : State) : State :=
  let ps := portOf s p
  setPort s p { ps with waiters := ps.waiters.erase who }

/-- A producer that is not waiting writes frames in their order until one finds no room; then it begins to wait.
Answers the state and the frames not written. -/
def writeAll (who : Producer) : List (Port × PartFrame) → State → State × List (Port × PartFrame)
  | [], s => (s, [])
  | (p, f) :: rest, s =>
    if hasRoom (portOf s p) then writeAll who rest (writeFrame p f s)
    else (beginWait p who s, (p, f) :: rest)

/-- A producer whose frames `box` wait has `new` frames to write: it writes them at once, or they wait behind
those already waiting. -/
def send (who : Producer) (box new : List (Port × PartFrame)) (s : State) : State × List (Port × PartFrame) :=
  match box with
  | [] => writeAll who new s
  | _ :: _ => (s, box ++ new)

/-- The frame a waiting producer waits to write may now be written. -/
def canResume (who : Producer) (box : List (Port × PartFrame)) (s : State) : Bool :=
  match box with
  | [] => false
  | (p, _) :: _ => hasTurn (portOf s p) who

/-- A waiting producer writes the frame it waits with, and then the frames behind it as far as there is room. -/
def resume (who : Producer) (box : List (Port × PartFrame)) (s : State) : State × List (Port × PartFrame) :=
  match box with
  | [] => (s, [])
  | (p, f) :: rest => writeAll who rest (writeFrame p f (endWait p who s))

/-! ## The clock and the phase -/

/-- The clock in seconds of day. Every reader runs with the clock set (R2, log 15). -/
def clockNow (s : State) : Nat := s.day.clock.getD 0

/-- The clock's minute (section 1.2). -/
def minuteNow (s : State) : Nat := clockNow s / 60

/-- PREOPEN, OPEN and LAST_CALL. -/
def inDay : Phase → Bool
  | .night => false
  | .checking => false
  | .preopen => true
  | .opened => true
  | .lastCall => true

/-- R1: a change of phase sets PHASE_CHANGED; each change to LAST_CALL is handed to the Pass Engine (R90). -/
def setPhase (p : Phase) (s : State) : State :=
  if s.day.phase = p then s
  else
    let s1 := raise .phaseChanged { s with day := { s.day with phase := p } }
    if p = .lastCall then { s1 with out := { s1.out with lastCalls := s1.out.lastCalls + 1 } } else s1

/-! ## Lookups

Each reads the tables as they stand, what was written in this NIGHT included (R20, R165; R16 reads otherwise: log 42). -/

def rideEntry (s : State) (r : Ride) : RideEntry := look s.rideTable r
def rideState (s : State) (r : Ride) : RideState := (look s.rides r).state

/-- R20: the enabled ride of lowest index with the label, in the table as it stands (log 42). -/
def rideByLabel (s : State) (l : Label) : Option Ride :=
  (indices 48).find? fun r => (rideEntry s r).enabled && (rideEntry s r).label == l

/-- R20: the enabled ride of lowest index with the controller address, in the table as it stands (log 42). -/
def rideByController (s : State) (a : Addr) : Option Ride :=
  (indices 48).find? fun r => (rideEntry s r).enabled && (rideEntry s r).controllerAddress == a

/-- R165: the used reader of lowest index with the address, in the table as it stands (log 42). -/
def readerByAddress (s : State) (a : Addr) : Option ReaderIx :=
  (indices 512).find? fun i => (look s.readers i).used && (look s.readers i).address == a

/-- R61, 00_scope 4.5: the credentials 0 and all ones are invalid. -/
def validCredential (c : Credential) : Bool := c != 0 && c != BitVec.allOnes 48

/-- R37: the profile of a ride. -/
def rideProfile (s : State) (r : Ride) : Profile := look s.calendar.profiles (rideEntry s r).profile

/-- The record of a window. -/
def windowOf (s : State) (r : Ride) (k : Nat) : Option Window := (look s.calendar.windows r)[k]?

/-- The windows of a ride changed. -/
def changeWindows (r : Ride) (f : List Window → List Window) (s : State) : State :=
  { s with calendar := { s.calendar with windows := upd s.calendar.windows r f } }

/-- The flex list of a ride changed. -/
def changeFlex (r : Ride) (f : List Holder → List Holder) (s : State) : State :=
  { s with calendar := { s.calendar with flex := upd s.calendar.flex r f } }

/-! ## Ride states (section 2.2) -/

/-- R21: CLOSED for an enabled ride, OFF for a disabled one. -/
def restingState (e : RideEntry) : RideState := if e.enabled then .closed else .off

/-- R21, R26, R30: every ride at rest, its timer stopped and its credit 0. -/
def restRides (s : State) : State :=
  { s with rides := tabulate fun r => { state := restingState (rideEntry s r) } }

/-- R26: the timer stopped. -/
def stopTimer (s : State) (r : Ride) : State :=
  { s with rides := upd s.rides r fun x => { x with timer := { x.timer with running := false } } }

/-- R27: the timer reads GAP_LIMIT; 0 stops it, any other value loads it with an elapsed count of 0. -/
def restartTimer (s : State) (r : Ride) : State :=
  let g := (rideEntry s r).gapLimit
  { s with rides := upd s.rides r fun x =>
      { x with timer := if g = 0 then { x.timer with running := false }
                         else { running := true, limit := g, elapsed := 0 } } }

/-- R24, R25: the new state is handed to the Calendar, the Standby Tally Unit and the Board Composer. -/
def handState (r : Ride) (st : RideState) (s : State) : State :=
  { s with out := { s.out with
      calendarStates := s.out.calendarStates ++ [(r, st)]
      tallyStates := s.out.tallyStates ++ [(r, st)]
      boardStates := s.out.boardStates ++ [r] } }

/-- A ride enters a state from another one, with the effects of R24 and R25. -/
def enterState (r : Ride) (st : RideState) (s : State) : State :=
  let s1 := { s with rides := upd s.rides r fun x => { x with state := st } }
  match st with
  | .up => handState r st (restartTimer s1 r)
  | .suspect => handState r st (raise .rideSuspect (stopTimer s1 r))
  | .down => handState r st (raise .rideDown (stopTimer s1 r))
  | .closed => handState r st (stopTimer s1 r)
  | .off => s1

/-- R22, R23: a report of UP, DOWN or CLOSED. A report of the current state has no effect; an OFF ride is not
acted on. -/
def reportState (r : Ride) (st : RideState) (s : State) : State :=
  if rideState s r = .off ∨ rideState s r = st then s else enterState r st s

/-- R200: 1 UP, 2 DOWN, 3 CLOSED. -/
def reportedState : Nat → Option RideState
  | 1 => some .up
  | 2 => some .down
  | 3 => some .closed
  | _ => none

end Sys2Proof.Machine
end

