-- ==== Sys2Proof/Machine/Formats.lean ====
section
/-! DEFINITION. The bytes of the frames the part originates (R196 to R200, R203): most significant byte first, absent
fields 0, enumerated values coded from 1 in the order of the rule that lists them. -/

namespace Sys2Proof.Machine

/-! ## Numbers -/

def enc1 (n : Nat) : List Byte := [BitVec.ofNat 8 n]
def enc2 (n : Nat) : List Byte := [BitVec.ofNat 8 (n / 256), BitVec.ofNat 8 n]
def enc3 (n : Nat) : List Byte := [BitVec.ofNat 8 (n / 65536), BitVec.ofNat 8 (n / 256), BitVec.ofNat 8 n]
def encWord (w : BitVec 16) : List Byte := enc2 w.toNat
def encCred (c : Credential) : List Byte := enc3 (c.toNat / 16777216) ++ enc3 c.toNat
def encBool (b : Bool) : List Byte := enc1 (if b then 1 else 0)

/-- R199: a "none" in a read reply is all ones of the field's width. -/
def encNone (width : Nat) : List Byte := List.replicate width 0xFF
def encOpt1 (v : Option Nat) : List Byte := v.elim (encNone 1) enc1
def encOpt2 (v : Option Nat) : List Byte := v.elim (encNone 2) enc2
def encOpt3 (v : Option Nat) : List Byte := v.elim (encNone 3) enc3

/-- Section 13.3: the twelve flags as bits 0 to 11 of two bytes. -/
def encFlags (fs : FlagSet) : List Byte := enc2 fs.toNat

/-! ## Codes -/

def verdictCode : VerdictResult → Nat
  | .admitStandby => 1
  | .admitPass => 2
  | .admitFlex => 3
  | .refuseNoPass => 4
  | .refuseEarly => 5
  | .refuseExpired => 6
  | .refuseRideDown => 7
  | .refuseRideClosed => 8
  | .refuseParkClosed => 9
  | .refuseBadCredential => 10

def reasonCode : Reason → Nat
  | .unknownRide => 1
  | .ridePaused => 2
  | .rideDown => 3
  | .rideClosed => 4
  | .duplicate => 5
  | .limit => 6
  | .tableFull => 7
  | .soldOut => 8

def listedCode : ListedState → Nat
  | .future => 1
  | .redeemable => 2
  | .past => 3
  | .lost => 4
  | .flex => 5

def changeCode : ChangeReason → Nat
  | .shifted => 1
  | .flexed => 2
  | .expired => 3

/-- R199: board statuses; R203 gives 6 to OFF in read replies. -/
def postedCode : Posted → Nat
  | .wait _ => 1
  | .over => 2
  | .paused => 3
  | .down => 4
  | .closed => 5
  | .off => 6

/-- R145: the minutes of a posted value, 0 unless WAIT. -/
def postedMinutes : Posted → Nat
  | .wait m => m
  | .over => 0
  | .paused => 0
  | .down => 0
  | .closed => 0
  | .off => 0

def mgmtResultCode : MgmtResult → Nat
  | .done => 1
  | .accepted => 2
  | .busy => 3
  | .locked => 4
  | .refusedPhase => 5
  | .badIndex => 6
  | .badValue => 7
  | .notFound => 8
  | .clockUnset => 9

/-! ## Bodies (R200) -/

def listedBytes (p : ListedPass) : List Byte :=
  encWord p.label ++ enc1 p.party ++ enc1 (listedCode p.state) ++ enc2 (p.span.elim 0 Prod.fst) ++
    enc2 (p.span.elim 0 Prod.snd)

def passReplyBody (tag : Tag) : PassResult → List Byte
  | .grant label party start stop earlier =>
    enc1 1 ++ enc1 earlier.length ++ encWord tag ++ encWord label ++ enc1 party ++ enc1 0 ++ enc2 start ++ enc2 stop ++
      earlier.flatMap fun r => enc1 (reasonCode r)
  | .refused reasons => enc1 2 ++ enc1 reasons.length ++ encWord tag ++ reasons.flatMap fun r => enc1 (reasonCode r)
  | .retry => enc1 3 ++ enc1 0 ++ encWord tag
  | .queueFull => enc1 4 ++ enc1 0 ++ encWord tag
  | .phaseClosed => enc1 5 ++ enc1 0 ++ encWord tag
  | .badRequest => enc1 6 ++ enc1 0 ++ encWord tag
  | .listed passes => enc1 7 ++ enc1 passes.length ++ encWord tag ++ passes.flatMap listedBytes
  | .cancelled label party start =>
    enc1 8 ++ enc1 0 ++ encWord tag ++ encWord label ++ enc1 party ++ encBool start.isNone ++ enc2 (start.getD 0)
  | .notFound => enc1 9 ++ enc1 0 ++ encWord tag

def boardLineBytes (l : BoardLine) : List Byte :=
  encWord l.label ++ enc1 (postedCode l.value + if l.alert then 128 else 0) ++ enc1 (postedMinutes l.value)

def boardBody : BoardContent → List Byte
  | .blank => enc1 1 ++ enc1 0
  | .lines entries => enc1 0 ++ enc1 entries.length ++ entries.flatMap boardLineBytes

/-- The kind code and the body of a message (R198, R200, R201). -/
def messageBytes : OutMessage → Nat × List Byte
  | .verdict label result party minutes tag =>
    (0x02, encWord label ++ enc1 (verdictCode result) ++ enc1 (party.getD 0) ++ enc2 (minutes.getD 0) ++ encWord tag)
  | .passReply tag result => (0x13, passReplyBody tag result)
  | .passChange credential label party reason oldStart target moves =>
    (0x14, encCred credential ++ encWord label ++ enc1 party ++ enc1 (changeCode reason) ++ enc2 oldStart ++
      enc2 (target.elim 0 Prod.fst) ++ enc2 (target.elim 0 Prod.snd) ++ enc1 moves ++ enc1 0)
  | .boardFrame content => (0x20, boardBody content)
  | .notice flags => (0x21, encFlags flags ++ enc2 0)
  | .mgmtReply code result sequence ignored fields =>
    (0x31, enc1 code ++ enc1 (mgmtResultCode result) ++ encWord sequence ++ encBool ignored ++ enc1 0 ++ fields)

/-- R197: padding with zero bytes to the Ethernet minimum of 60 bytes before the frame check sequence. -/
def padded (bs : List Byte) : Frame := bs ++ List.replicate (60 - bs.length) 0

/-- R197: a frame the part originates, as it goes on the wire. -/
def wireBytes (node : Addr) (f : PartFrame) : Frame :=
  let (kind, body) := messageBytes f.message
  padded (List.replicate 6 0xFF ++ [0x02, 0x5A, 0x38, 0x24] ++ encWord node ++ [0x88, 0xB6] ++
    enc1 1 ++ enc1 kind ++ enc2 body.length ++ encWord f.destination ++ encWord node ++ body)

end Sys2Proof.Machine
end

