-- ==== Sys2Proof/Machine/Tally.lean ====
section
/-! DEFINITION. The Standby Tally Unit (chapter 8): the mark list, boardings, the rate history, the estimate, the
posting curves and the posted values. -/

namespace Sys2Proof.Machine

/-! ## Marks -/

/-- R134: the age of a mark at a time, 0 when the time is earlier than its entry. -/
def markAge (t : Nat) (m : Mark) : Nat := t - m.entry

/-- R134: the queue of a tally. -/
def queueOf (marks : List Mark) : Nat := (marks.map Mark.count).sum

/-- R135, R136: `h` guests join at the clock time `t`. Answers the marks and how many guests went uncounted. -/
def joinMarks (h t : Nat) (marks : List Mark) : List Mark × Nat :=
  match marks.getLast? with
  | none => ([⟨t, h⟩], 0)
  | some m =>
    if markAge t m < 30 ∧ m.count + h ≤ Config.markMax then (marks.dropLast ++ [⟨m.entry, m.count + h⟩], 0)
    else if marks.length < Config.markPlaces then (marks ++ [⟨max t m.entry, h⟩], 0)
    else
      let counted := min h (Config.markMax - m.count)
      (marks.dropLast ++ [⟨m.entry, m.count + counted⟩], h - counted)

/-- R137, R138: `n` guests board at the clock time `t`, oldest marks first. Answers the marks, the observation of the
newest mark emptied, and how many boarders met no mark. -/
def boardMarks (t : Nat) : Nat → List Mark → Option ObservedWait → List Mark × Option ObservedWait × Nat
  | n, [], obs => ([], obs, n)
  | n, m :: ms, obs =>
    if n = 0 then (m :: ms, obs, 0)
    else if m.count ≤ n then boardMarks t (n - m.count) ms (some ⟨ceilDiv (markAge t m) 60, t⟩)
    else (⟨m.entry, m.count - n⟩ :: ms, obs, 0)

/-- R138: an observation is fresh for less than 900 seconds; a negative difference counts as 0. -/
def isFresh (now : Nat) (o : ObservedWait) : Bool := decide (now - o.observedAt < 900)

/-! ## The rate -/

/-- R139: the rate in riders per hour. -/
def rateOf (buckets : List Nat) : Nat := buckets.sum * 4

/-- R139: the oldest bucket is discarded and an empty one joins as the newest. -/
def rotateRate (minute : Nat) (y : Tally) : Tally :=
  if y.newestMinute < minute then
    { y with buckets := 0 :: y.buckets.dropLast, newestMinute := minute }
  else y

/-- R139: an addition to the newest bucket, which stays at 65,535. -/
def addToRate (n : Nat) : List Nat → List Nat
  | [] => []
  | b :: bs => min Config.bucketMax (b + n) :: bs

/-! ## The estimate and the posted value -/

/-- R40, R142: the share of throughput offered to passes after the throttle. -/
def effectiveShare (passShare throttle : Nat) : Nat := passShare - throttle

/-- R142: the estimate E of a tally at the time `now`. -/
def estimateOf (now : Nat) (c : CapacityFields) (throttle : Nat) (y : Tally) : Nat :=
  let q := queueOf y.marks
  let rate := rateOf y.buckets
  let fallback := c.hourlyCapacity * (100 - effectiveShare c.passShare throttle) / 100
  let predicted :=
    if q = 0 then 0
    else if 0 < rate then ceilDiv (q * 60) rate
    else if 0 < fallback then ceilDiv (q * 60) fallback
    else 999
  let observed := match y.lastObserved with
    | none => predicted
    | some o => if isFresh now o then max predicted o.minutes else predicted
  min 999 observed

/-- R143: up to a multiple of 5. -/
def toFives (n : Nat) : Nat := ceilDiv n 5 * 5

/-- R143: the bands. -/
def bandMinutes : List Nat := [5, 10, 15, 20, 30, 45, 60, 75, 90, 120, 150, 180, 240]

/-- R143: the posted minutes P of an estimate, `none` where BANDS has no band. -/
def curveMinutes (c : PostingCurve) (e : Nat) : Option Nat :=
  match c with
  | .exact => some e
  | .fives => some (toFives e)
  | .padded => some (toFives (ceilDiv (e * 110) 100))
  | .bands => bandMinutes.find? fun b => decide (e ≤ b)

/-- R143, R145: WAIT with P minutes if P is at most 240, OVER otherwise. -/
def postedForUp (c : PostingCurve) (e : Nat) : Posted :=
  match curveMinutes c e with
  | none => .over
  | some p => if p ≤ 240 then .wait p else .over

/-- R145: the posted value of a ride in a state with an estimate. -/
def postedFor (st : RideState) (c : PostingCurve) (e : Nat) : Posted :=
  match st with
  | .up => postedForUp c e
  | .suspect => .paused
  | .down => .down
  | .closed => .closed
  | .off => .off

/-- R133: the posted value at a reset, a close and a completion. -/
def restingPosted (e : RideEntry) : Posted := if e.enabled then .closed else .off

/-! ## Changes of the tallies -/

/-- R147: every ride whose posted value differs between two sets of tallies is handed to the Board Composer. -/
def postedChanges (before after : Table 48 Tally) : List (Ride × Posted) :=
  ((indices 48).filter fun r => (look before r).posted ≠ (look after r).posted).map fun r =>
    (r, (look after r).posted)

/-- The tallies change, and the changes of posted value are handed over (R147). -/
def setTallies (ys : Table 48 Tally) (s : State) : State :=
  { s with tallies := ys, out := { s.out with posted := s.out.posted ++ postedChanges s.tallies ys } }

/-- R133: every tally is emptied. -/
def emptyTallies (minute : Nat) (s : State) : State :=
  setTallies (tabulate fun r => { newestMinute := minute, posted := restingPosted (rideEntry s r) }) s

/-- R142: the estimate of a ride as things stand. -/
def currentEstimate (s : State) (r : Ride) (y : Tally) : Nat :=
  estimateOf (clockNow s) (rideEntry s r).inEffect (look s.monitors r).throttle y

/-- R141, R145: the tally of a ride after a posting tick. -/
def tickTally (s : State) (r : Ride) : Tally :=
  let y0 := look s.tallies r
  let y := if clockNow s % 60 = 0 then rotateRate (minuteNow s) y0 else y0
  if inDay s.day.phase then
    let e := if (rideEntry s r).enabled then currentEstimate s r y else y.estimate
    { y with estimate := e, posted := postedFor (rideState s r) (rideEntry s r).postingCurve e }
  else { y with posted := restingPosted (rideEntry s r) }

/-- R141: the posting tick. -/
def postingTick (s : State) : State := setTallies (tabulate fun r => tickTally s r) s

/-! ## Hand-offs -/

/-- R135, R136: a standby hand-off. -/
def takeStandby (h : StandbyHandoff) (s : State) : State :=
  if inDay s.day.phase then
    let y := look s.tallies h.ride
    let j := joinMarks h.headCount h.time y.marks
    let y' := { y with marks := j.1, saturated := y.saturated || decide (0 < j.2) }
    let s1 := { s with tallies := put s.tallies h.ride y' }
    if 0 < j.2 then raise .tallySaturated s1 else s1
  else s

/-- R137: a dispatch hand-off. -/
def takeDispatch (h : DispatchHandoff) (s : State) : State :=
  if inDay s.day.phase then
    let y := look s.tallies h.ride
    let b := boardMarks h.time h.standbyPart y.marks y.lastObserved
    let y' := { y with
      marks := b.1
      lastObserved := b.2.1
      buckets := addToRate h.standbyPart y.buckets
      saturated := y.saturated && decide (Config.markPlaces ≤ b.1.length) }
    changeCounts h.ride (fun c => { c with unseenBoarders := countUp c.unseenBoarders b.2.2 })
      { s with tallies := put s.tallies h.ride y' }
  else s

/-- R146: a state hand-off to the Standby Tally Unit. -/
def takeTallyState (r : Ride) (st : RideState) (s : State) : State :=
  if inDay s.day.phase then
    let y := look s.tallies r
    let e := if st = .up then currentEstimate s r y else y.estimate
    let y' := { y with estimate := e, posted := postedFor st (rideEntry s r).postingCurve e }
    setTallies (put s.tallies r y') s
  else s

/-! ## The meanings -/

/-- STANDBY_HANDOFF: the Standby Tally Unit takes one of the outstanding standby hand-offs, in either order (R140). -/
def execStandbyHandoff (position : Nat) (s : State) : Result :=
  event (fun s =>
    match s.out.standbys[position]? with
    | none => s
    | some h => takeStandby h { s with out := { s.out with standbys := s.out.standbys.eraseIdx position } }) s

/-- DISPATCH_HANDOFF: the oldest outstanding dispatch hand-off of the ride is taken (R33, R137). -/
def execDispatchHandoff (r : Ride) (s : State) : Result :=
  event (fun s =>
    match takeFirst (fun h => h.ride == r) s.out.dispatches with
    | none => s
    | some (h, rest) => takeDispatch h { s with out := { s.out with dispatches := rest } }) s

/-- TALLY_STATE_HANDOFF: the oldest outstanding state change of the ride is taken (R146, the order: log 41). -/
def execTallyStateHandoff (r : Ride) (s : State) : Result :=
  event (fun s =>
    match takeFirst (fun h => h.1 == r) s.out.tallyStates with
    | none => s
    | some (h, rest) => takeTallyState h.1 h.2 { s with out := { s.out with tallyStates := rest } }) s

end Sys2Proof.Machine
end

