-- ==== Sys2Proof/Machine/Boards.lean ====
section
/-! DEFINITION. The Board Composer (chapter 11): the content of board frames, the spacing of two seconds, modes,
changes, refreshes and deferrals. -/

namespace Sys2Proof.Machine

/-! ## Content (R176) -/

def boardEntry (s : State) (b : BoardIx) : BoardEntry := look s.boardTable b
def boardOf (s : State) (b : BoardIx) : Board := look s.boards b

/-- One board's state changed. -/
def changeBoard (b : BoardIx) (f : Board → Board) (s : State) : State := { s with boards := upd s.boards b f }

/-- R174: a board is used while its address is not 0. -/
def boardUsed (e : BoardEntry) : Bool := e.address != 0

/-- R174: the range of a used entry is valid. -/
def boardRangeOk (e : BoardEntry) : Bool :=
  decide (1 ≤ e.rideCount) && decide (e.rideCount ≤ 12) && decide (e.firstRide + e.rideCount ≤ 48)

/-- The ride is in the board's range. -/
def inRange (e : BoardEntry) (r : Ride) : Bool :=
  decide (e.firstRide ≤ r.val) && decide (r.val < e.firstRide + e.rideCount)

/-- R176: the alert marker. -/
def alertOf (alertMinutes : Nat) : Posted → Bool
  | .wait m => decide (0 < alertMinutes) && decide (alertMinutes ≤ m)
  | .over => decide (0 < alertMinutes)
  | .paused => false
  | .down => false
  | .closed => false
  | .off => false

/-- R176: the entries of live content: the rides of the range in index order, OFF left out, the first 12. -/
def liveLines (s : State) (e : BoardEntry) : List BoardLine :=
  ((((indices 48).filter (inRange e)).filter fun r => decide (look s.heldValues r ≠ .off)).take 12).map fun r =>
    { label := (rideEntry s r).label, value := look s.heldValues r, alert := alertOf e.alertMinutes (look s.heldValues r) }

def liveContent (s : State) (b : BoardIx) : BoardContent := .lines (liveLines s (boardEntry s b))

/-- R178: what a frame of the board's mode carries. -/
def modeContent (s : State) (b : BoardIx) : BoardContent :=
  match (boardOf s b).mode with
  | .live => liveContent s b
  | .hold => (boardOf s b).frozen.getD .blank
  | .blank => .blank

/-! ## Sending -/

/-- R177: a frame may be written when the spacing count is NONE or at least 2. -/
def spacingAllows (x : Board) : Bool := x.spacing.all fun n => decide (Config.boardSpacing ≤ n)

/-- R177: writing a frame sets the last-sent content and both counts, and ends pending and deferred. -/
def noteSent (c : BoardContent) (x : Board) : Board :=
  { x with lastSent := some c, spacing := some 0, refresh := 0, pending := false, deferred := false }

/-- R181: a deferral. -/
def noteDeferred (x : Board) : Board := { x with refresh := 0, pending := false, deferred := true }

/-- R181: before any frame is written the length of the FIELD part output queue is read: below 96 the frame is
written, otherwise the board is deferred. The Board Composer never waits (R168). -/
def writeBoard (b : BoardIx) (c : BoardContent) (s : State) : State :=
  if s.fieldPort.partQueue.length < Config.boardLimit then
    changeBoard b (noteSent c) (writeFrame .field ⟨(boardEntry s b).address, .boardFrame c⟩ s)
  else changeBoard b noteDeferred s

/-- R178, R179: a frame is due: written at once if the spacing allows, pending otherwise; nothing for a board that is
unused or deferred. -/
def frameDue (b : BoardIx) (c : BoardContent) (s : State) : State :=
  if boardUsed (boardEntry s b) && !(boardOf s b).deferred then
    if spacingAllows (boardOf s b) then writeBoard b c s else changeBoard b (fun x => { x with pending := true }) s
  else s

/-- R179: a change for a board. -/
def boardChanged (b : BoardIx) (s : State) : State :=
  let x := boardOf s b
  if x.mode = .live ∧ x.pending = false ∧ x.lastSent ≠ some (liveContent s b) then frameDue b (liveContent s b) s else s

/-- R179, R181: a change reaches the boards one after the other, those of `order` first and the others in index order
(log 18). A board named twice finds nothing to do the second time. -/
def boardsChanged (order : List BoardIx) (which : BoardIx → Bool) (s : State) : State :=
  ((order ++ (indices 64).filter fun b => !order.contains b).filter which).foldl (fun s b => boardChanged b s) s

/-- R175: a held value is set; a change of it is a change for every board whose range includes the ride. -/
def setHeld (r : Ride) (v : Posted) (order : List BoardIx) (s : State) : State :=
  if look s.heldValues r = v then s
  else
    let s1 := { s with heldValues := put s.heldValues r v }
    boardsChanged order (fun b => inRange (boardEntry s1 b) r) s1

/-- R175: the Board Composer reads the ride's state and sets the held value; UP leaves it. -/
def takeBoardState (r : Ride) (order : List BoardIx) (s : State) : State :=
  match rideState s r with
  | .up => s
  | .down => setHeld r .down order s
  | .closed => setHeld r .closed order s
  | .suspect => setHeld r .paused order s
  | .off => setHeld r .off order s

/-- R178: a change of mode. HOLD freezes the last-sent content from BLANK too, also where no blank frame was written
(log 40). -/
def changeMode (b : BoardIx) (m : BoardModeKind) (s : State) : State :=
  let x := boardOf s b
  match m with
  | .live =>
    let s1 := changeBoard b (fun x => { x with mode := .live, frozen := none }) s
    frameDue b (liveContent s1 b) s1
  | .hold => changeBoard b (fun x => { x with mode := .hold, frozen := x.lastSent, pending := false }) s
  | .blank =>
    let s1 := changeBoard b (fun x => { x with mode := .blank, frozen := none }) s
    if boardUsed (boardEntry s b) && !x.deferred && decide (x.lastSent ≠ some .blank) then frameDue b .blank s1
    else changeBoard b (fun x => { x with pending := false }) s1

/-- R182: a taken write of a board entry acts on the board; `old` is the entry before it. -/
def boardWritten (b : BoardIx) (old : BoardEntry) (s : State) : State :=
  let e := boardEntry s b
  if e.address = 0 then
    if old.address = 0 then s else changeBoard b (fun x => { x with pending := false, deferred := false }) s
  else if e.address ≠ old.address then frameDue b (modeContent s b) s
  else boardChanged b s

/-! ## The counts and the clock -/

/-- R177: both counts advance with a second of the clock and stay at 120. -/
def countSecond (x : Board) : Board :=
  { x with
    spacing := x.spacing.map fun n => min Config.boardCountMax (n + 1)
    refresh := min Config.boardCountMax (x.refresh + 1) }

/-- R179: a pending board's spacing has ended: a frame of its mode is written (log 17). -/
def spacingEnd (b : BoardIx) (s : State) : State :=
  if (boardOf s b).pending && spacingAllows (boardOf s b) then writeBoard b (modeContent s b) s else s

/-- R180: a used board is refreshed, unless its refresh count has restarted since the clock's advance. -/
def refreshBoard (b : BoardIx) (s : State) : State :=
  if boardUsed (boardEntry s b) && decide ((boardOf s b).refresh ≠ 0) then writeBoard b (modeContent s b) s else s

/-! ## The meanings -/

/-- BOARD_STATE_HANDOFF: the oldest outstanding state change of the ride is taken (R175). -/
def execBoardStateHandoff (r : Ride) (order : List BoardIx) (s : State) : Result :=
  event (fun s =>
    match takeFirst (fun h => h == r) s.out.boardStates with
    | none => s
    | some (_, rest) => takeBoardState r order { s with out := { s.out with boardStates := rest } }) s

/-- POSTED_VALUE_HANDOFF: the oldest outstanding posted value of the ride is taken (R175). -/
def execPostedValueHandoff (r : Ride) (order : List BoardIx) (s : State) : Result :=
  event (fun s =>
    match takeFirst (fun h => h.1 == r) s.out.posted with
    | none => s
    | some (h, rest) => setHeld r h.2 order { s with out := { s.out with posted := rest } }) s

end Sys2Proof.Machine
end

