-- ==== Sys2Proof/Machine/Guests.lean ====
section
/-! DEFINITION. The Guest Table (chapter 4): its records in ascending order of credential, and the operations that
place, move and remove a pass record. -/

namespace Sys2Proof.Machine

/-- R61: a guest's record. -/
def guestOf (c : Credential) (gs : List Guest) : Option Guest := gs.find? fun g => g.credential == c

/-- R62: a guest's pass for a ride. -/
def passIn (r : Ride) (ps : List Pass) : Option Pass := ps.find? fun p => p.ride == r

/-- R68: the lookup of a guest's pass for a ride. -/
def passOf (c : Credential) (r : Ride) (gs : List Guest) : Option Pass := (guestOf c gs).bind fun g => passIn r g.passes

/-- R65: a pass record joins the tail of the guest's pass list; a guest without a record gets one. -/
def addPass (c : Credential) (p : Pass) : List Guest → List Guest
  | [] => [⟨c, [p]⟩]
  | g :: gs =>
    if c.toNat < g.credential.toNat then ⟨c, [p]⟩ :: g :: gs
    else if c = g.credential then { g with passes := g.passes ++ [p] } :: gs
    else g :: addPass c p gs

/-- R67: the pass for a ride leaves the guest's pass list, and an emptied record leaves the table. -/
def dropPass (c : Credential) (r : Ride) : List Guest → List Guest
  | [] => []
  | g :: gs =>
    if g.credential = c then
      match g.passes.filter fun p => p.ride != r with
      | [] => gs
      | p :: ps => { g with passes := p :: ps } :: gs
    else g :: dropPass c r gs

/-- R63: the WINDOW and MOVES of a guest's pass for a ride are changed. -/
def changePass (c : Credential) (r : Ride) (f : Pass → Pass) (gs : List Guest) : List Guest :=
  gs.map fun g =>
    if g.credential = c then { g with passes := g.passes.map fun p => if p.ride = r then f p else p } else g

/-- R64: why the Guest Table refuses a further pass, the first check that fails. -/
def guestRefusal (limit : Nat) (c : Credential) (r : Ride) (gs : List Guest) : Option Reason :=
  match guestOf c gs with
  | some g =>
    if (passIn r g.passes).isSome then some .duplicate
    else if limit ≤ g.passes.length then some .limit
    else none
  | none => if Config.guestPlaces ≤ gs.length then some .tableFull else none

/-- R65, R66: a grant's part in the Guest Table, with GUEST_HIGH at the creation that brings the record count to
58,983. -/
def grantPass (c : Credential) (p : Pass) (s : State) : State :=
  let gs := addPass c p s.guests
  let s1 := { s with guests := gs }
  if (guestOf c s.guests).isNone && decide (gs.length = Config.guestHigh) then raise .guestHigh s1 else s1

end Sys2Proof.Machine
end

