-- ==== Sys2Proof/Machine/Calendar.lean ====
section
/-! DEFINITION. The Return-Window Calendar (chapter 3): capacity, the build of a day's windows, their clock boundaries,
and the claims of the other blocks. A claim that places, moves or removes a pass changes the window records and the
Guest Table in the same event (R39). -/

namespace Sys2Proof.Machine

/-! ## Capacity -/

/-- R40, step 2: the base B. -/
def baseCapacity (f : CapacityFields) (length throttle : Nat) : Nat :=
  f.hourlyCapacity * length * (f.passShare - throttle) / 6000

/-- R40, step 3: the capacity C. -/
def windowCapacity (f : CapacityFields) (length derate overbook throttle : Nat) : Nat :=
  min Config.capacityMax (baseCapacity f length throttle * derate * (100 + overbook) / 10000)

/-- R40, step 4: the regular limit L of a capacity. -/
def regularLimit (f : CapacityFields) (capacity : Nat) : Nat := capacity - capacity * f.reserveShare / 100

/-! ## The build -/

/-- R37, R38: window `k` of a profile, built at the clock's minute `now`. -/
def buildWindow (p : Profile) (f : CapacityFields) (now k : Nat) : Window :=
  let start := p.firstStart + k * p.windowLength
  let c := windowCapacity f p.windowLength 100 0 0
  { start := start
    stop := start + p.windowLength
    state := if start ≤ now + p.early then .past else .future
    ended := decide (start + p.windowLength ≤ now)
    capacity := c
    limit := regularLimit f c }

/-- R38: the windows of a ride; a disabled ride has none. -/
def buildRide (s : State) (now : Nat) (r : Ride) : List Window :=
  let e := rideEntry s r
  let p := rideProfile s r
  if e.enabled then (List.range p.windowCount).map fun k => buildWindow p e.inEffect now k else []

/-- R10, R38: the calendar of a passed check; every flex list starts empty. -/
def buildCalendar (s : State) : State :=
  { s with calendar := { s.calendar with
      windows := tabulate fun r => buildRide s (minuteNow s) r
      flex := filled 48 [] } }

/-- R38: every window record, holder list and flex list is discarded; the profiles stay. -/
def emptyCalendar (s : State) : State :=
  { s with calendar := { s.calendar with windows := filled 48 [], flex := filled 48 [] } }

/-! ## Work items -/

/-- R48: items of one event are handed to the Walker together; no items, no hand-off. -/
def handItems (items : List WorkItem) (s : State) : State :=
  match items with
  | [] => s
  | _ :: _ => { s with out := { s.out with workItems := s.out.workItems ++ [items] } }

/-- R48: the item of a window that has just become LOST or PAST, if it has holders. -/
def itemFor (r : Ride) (k : Nat) (kind : WorkKind) (w : Window) : List WorkItem :=
  if w.holders.isEmpty then [] else [⟨r, k, kind⟩]

/-- One window record replaced. -/
def putWindow (r : Ride) (k : Nat) (w : Window) (s : State) : State := changeWindows r (fun ws => ws.set k w) s

/-! ## Clock boundaries -/

/-- The clock stands at second 00 of a minute. -/
def clockAt (s : State) (minute : Nat) : Bool := s.day.clock == some (60 * minute)

/-- R45: the early-redemption time of a window. The boundary is that of the window as it stands (log 5). -/
def earlyRedemption (r : Ride) (k : Nat) (s : State) : State :=
  match windowOf s r k with
  | none => s
  | some w =>
    if w.state = .future ∧ (rideProfile s r).early ≤ w.start ∧ clockAt s (w.start - (rideProfile s r).early) then
      match rideState s r with
      | .up => putWindow r k { w with state := .redeemable } s
      | .suspect => putWindow r k { w with state := .redeemable } s
      | .down => handItems (itemFor r k .displace w) (putWindow r k { w with state := .lost } s)
      | .closed => handItems (itemFor r k .displace w) (putWindow r k { w with state := .lost } s)
      | .off => s
    else s

/-- R42: the end of a window. -/
def windowEnd (r : Ride) (k : Nat) (s : State) : State :=
  match windowOf s r k with
  | none => s
  | some w =>
    if w.ended = false ∧ clockAt s w.stop then
      let s1 := putWindow r k { w with ended := true } s
      { s1 with out := { s1.out with evaluations := s1.out.evaluations ++ [⟨r, k, w.stop⟩] } }
    else s

/-- R46: the closing time of a window. -/
def closingTime (r : Ride) (k : Nat) (s : State) : State :=
  match windowOf s r k with
  | none => s
  | some w =>
    if w.state = .redeemable ∧ clockAt s (w.stop + (rideProfile s r).late) then
      handItems (itemFor r k .expire w) (putWindow r k { w with state := .past } s)
    else s

/-! ## Ride states and recomputations -/

/-- R47: a REDEEMABLE window becomes LOST. -/
def loseRedeemable (w : Window) : Window := if w.state = .redeemable then { w with state := .lost } else w

/-- R47: the DISPLACE items of the REDEEMABLE windows with holders, in window index order. -/
def lostItems (r : Ride) (ws : List Window) : List WorkItem :=
  (ws.zipIdx.filter fun x => decide (x.1.state = .redeemable)).flatMap fun x => itemFor r x.2 .displace x.1

/-- R47: a state change handed to the Calendar. -/
def takeCalendarState (r : Ride) (st : RideState) (s : State) : State :=
  if st = .down ∨ st = .closed then
    handItems (lostItems r (look s.calendar.windows r)) (changeWindows r (List.map loseRedeemable) s)
  else s

/-- R41, R158: the recomputation of one window. -/
def recomputeWindow (claim : RecomputationClaim) (length lead now : Nat) (w : Window) : Window :=
  if w.state = .future ∧ now + lead ≤ w.start then
    let c := windowCapacity claim.fields length claim.derate claim.overbook claim.throttle
    { w with capacity := c, limit := regularLimit claim.fields c }
  else w

/-- R158: a recomputation claim. -/
def takeRecomputation (claim : RecomputationClaim) (s : State) : State :=
  let p := rideProfile s claim.ride
  changeWindows claim.ride (List.map (recomputeWindow claim p.windowLength p.lead (minuteNow s))) s

/-! ## Holder lists -/

/-- A credential's entry in a holder list or flex list. -/
def holderIn (c : Credential) (hs : List Holder) : Option Holder := hs.find? fun h => h.credential == c

/-- R56: an entry leaves from wherever it stands; those behind it keep their order. -/
def withoutHolder (c : Credential) (hs : List Holder) : List Holder := hs.eraseP fun h => h.credential == c

/-- R50, R51: a placement. -/
def placeIn (h : Holder) (w : Window) : Window :=
  { w with booked := w.booked + h.party, held := w.held + h.party, holders := w.holders ++ [h] }

/-! ## Claims -/

/-- R50: a window meets every condition of a grant claim. -/
def grantable (now lead party : Nat) (earliest latest : Option Nat) (w : Window) : Bool :=
  decide (w.state = .future) && decide (now + lead ≤ w.start) && earliest.all (fun e => decide (e ≤ w.start)) &&
    latest.all (fun l => decide (w.start ≤ l)) && decide (w.booked + party ≤ w.limit)

/-- R50: the first window of a ride that meets every condition. -/
def grantWindow (s : State) (r : Ride) (party : Nat) (earliest latest : Option Nat) : Option Nat :=
  (look s.calendar.windows r).findIdx? (grantable (minuteNow s) (rideProfile s r).lead party earliest latest)

/-- R50, R65: the pass is placed into window `k`. -/
def placeGrant (r : Ride) (k : Nat) (c : Credential) (party : Nat) (origin : Origin) (s : State) : State :=
  match windowOf s r k with
  | none => s
  | some w =>
    grantPass c ⟨r, party, .window k, 0, origin, minuteNow s⟩ (putWindow r k (placeIn ⟨c, party⟩ w) s)

/-- R51, R119: the first later FUTURE window with room under C. -/
def shiftTarget (k party : Nat) (ws : List Window) : Option Nat :=
  ((ws.zipIdx.drop (k + 1)).find? fun x => decide (x.1.state = .future) && decide (x.1.booked + party ≤ x.1.capacity)).map
    Prod.snd

/-- The head holder leaves a LOST window (R51). -/
def moveOut (h : Holder) (rest : List Holder) (w : Window) : Window :=
  { w with held := w.held - h.party, movedOut := w.movedOut + h.party, holders := rest }

/-- What a displace claim answers (R51, R118). -/
structure Displaced where
  holder : Holder
  oldStart : Nat
  /-- Index, start and end of the new window; `none` for FLEX. -/
  target : Option (Nat × Nat × Nat)
  /-- Holders left in the lost window. -/
  left : Nat
deriving DecidableEq, Repr

/-- R51: a displace claim on window `k`. `none` is the answer "empty". -/
def displaceClaim (r : Ride) (k : Nat) (mayShift : Bool) (s : State) : Option (Displaced × State) :=
  match windowOf s r k with
  | none => none
  | some w =>
    match w.holders with
    | [] => none
    | h :: rest =>
      let s1 := putWindow r k (moveOut h rest w) s
      let target := if mayShift then shiftTarget k h.party (look s1.calendar.windows r) else none
      match target.bind fun j => (windowOf s1 r j).map fun v => (j, v) with
      | some (j, v) =>
        let s2 := putWindow r j (placeIn h v) s1
        some (⟨h, w.start, some (j, v.start, v.stop), rest.length⟩,
          { s2 with guests := changePass h.credential r (fun p => { p with place := .window j, moves := p.moves + 1 }) s2.guests })
      | none =>
        let s2 := changeFlex r (fun fs => fs ++ [h]) s1
        some (⟨h, w.start, none, rest.length⟩,
          { s2 with guests := changePass h.credential r (fun p => { p with place := .flex }) s2.guests })

/-- What an expire claim answers (R52). -/
structure Expired where
  holder : Holder
  oldStart : Nat
  left : Nat
deriving DecidableEq, Repr

/-- The head holder leaves a PAST window (R52). -/
def expireOut (h : Holder) (rest : List Holder) (w : Window) : Window :=
  { w with held := w.held - h.party, expired := w.expired + h.party, holders := rest }

/-- R52: an expire claim on window `k`. -/
def expireClaim (r : Ride) (k : Nat) (s : State) : Option (Expired × State) :=
  match windowOf s r k with
  | none => none
  | some w =>
    match w.holders with
    | [] => none
    | h :: rest =>
      let s1 := putWindow r k (expireOut h rest w) s
      some (⟨h, w.start, rest.length⟩, { s1 with guests := dropPass h.credential r s1.guests })

/-- A holder leaves a window by cancellation or revocation (R53). -/
def removeOut (h : Holder) (w : Window) : Window :=
  { w with booked := w.booked - h.party, held := w.held - h.party, holders := withoutHolder h.credential w.holders }

/-- What a removal claim answers: the party, and the start of the window or `none` for FLEX (R53, R71, R73). -/
structure Removed where
  party : Nat
  start : Option Nat
deriving DecidableEq, Repr

/-- R53: a removal claim. `none` is the answer "not found". -/
def removalClaim (c : Credential) (r : Ride) (s : State) : Option (Removed × State) :=
  match passOf c r s.guests with
  | none => none
  | some p =>
    match p.place with
    | .window k =>
      match windowOf s r k with
      | none => none
      | some w =>
        match holderIn c w.holders with
        | none => none
        | some h =>
          let s1 := putWindow r k (removeOut h w) s
          some (⟨h.party, some w.start⟩, { s1 with guests := dropPass c r s1.guests })
    | .flex =>
      match holderIn c (look s.calendar.flex r) with
      | none => none
      | some h =>
        let s1 := changeFlex r (withoutHolder c) s
        some (⟨h.party, none⟩, { s1 with guests := dropPass c r s1.guests })

/-- What a redemption claim answers (R54). -/
inductive Redemption where
  | noPass
  | early (minutes : Nat)
  | redeemed (party : Nat)
  | expired
  | redeemedFlex (party : Nat)
  | stopped (state : RideState)
deriving DecidableEq, Repr

/-- A holder leaves a window by redemption (R54). -/
def redeemOut (h : Holder) (w : Window) : Window :=
  { w with held := w.held - h.party, redeemed := w.redeemed + h.party, holders := withoutHolder h.credential w.holders }

/-- R54, R103: the minutes to the early-redemption time, 1 where they are 0. Where the clock's minute is past that time, after
a backward trim across midnight, they are 1 too (log 36). -/
def minutesToOpen (start early now : Nat) : Nat := max 1 (start - early - now)

/-- R54: redemption of a holder from window `k`. -/
def redeemFromWindow (c : Credential) (r : Ride) (k : Nat) (w : Window) (h : Holder) (s : State) : State :=
  let s1 := putWindow r k (redeemOut h w) s
  { s1 with guests := dropPass c r s1.guests }

/-- R54: redemption of a pass from the flex list. -/
def redeemFromFlex (c : Credential) (r : Ride) (s : State) : State :=
  let s1 := changeFlex r (withoutHolder c) s
  { s1 with guests := dropPass c r s1.guests }

/-- R54: the ride runs, for a pass of a LOST window or of the flex list. -/
def rideRuns : RideState → Bool
  | .up => true
  | .suspect => true
  | .off => false
  | .closed => false
  | .down => false

/-- R54: a redemption claim. -/
def redemptionClaim (c : Credential) (r : Ride) (s : State) : Redemption × State :=
  match passOf c r s.guests with
  | none => (.noPass, s)
  | some p =>
    match p.place with
    | .window k =>
      match windowOf s r k with
      | none => (.noPass, s)
      | some w =>
        match holderIn c w.holders with
        | none => (.noPass, s)
        | some h =>
          match w.state with
          | .future => (.early (minutesToOpen w.start (rideProfile s r).early (minuteNow s)), s)
          | .redeemable => (.redeemed h.party, redeemFromWindow c r k w h s)
          | .past => (.expired, s)
          | .lost =>
            if rideRuns (rideState s r) then (.redeemedFlex h.party, redeemFromWindow c r k w h s)
            else (.stopped (rideState s r), s)
    | .flex =>
      match holderIn c (look s.calendar.flex r) with
      | none => (.noPass, s)
      | some h =>
        if rideRuns (rideState s r) then (.redeemedFlex h.party, redeemFromFlex c r s)
        else (.stopped (rideState s r), s)

/-! ## Lookups -/

/-- R59, R153: the sums of EXPIRED and REDEEMED of the four PAST windows of highest index. -/
def noShowLookup (s : State) (r : Ride) : Nat × Nat :=
  let past := (((look s.calendar.windows r).filter fun w => decide (w.state = .past)).reverse).take 4
  ((past.map Window.expired).sum, (past.map Window.redeemed).sum)

/-- R59: the start and end of the window that holds a pass, `none` for FLEX. -/
def passSpan (s : State) (p : Pass) : Option (Nat × Nat) :=
  match p.place with
  | .flex => none
  | .window k => (windowOf s p.ride k).map fun w => (w.start, w.stop)

/-- R70: the window state of a listed pass. -/
def passState (s : State) (p : Pass) : ListedState :=
  match p.place with
  | .flex => .flex
  | .window k =>
    match (windowOf s p.ride k).map Window.state with
    | some .future => .future
    | some .redeemable => .redeemable
    | some .past => .past
    | some .lost => .lost
    | none => .flex

/-! ## The meanings -/

/-- RECOMPUTATION: the oldest outstanding recomputation claim of the ride is taken (R158). -/
def execRecomputation (r : Ride) (s : State) : Result :=
  event (fun s =>
    match takeFirst (fun h => h.ride == r) s.out.recomputations with
    | none => s
    | some (h, rest) => takeRecomputation h { s with out := { s.out with recomputations := rest } }) s

/-- CALENDAR_STATE_HANDOFF: the oldest outstanding state change of the ride is taken (R47). -/
def execCalendarStateHandoff (r : Ride) (s : State) : Result :=
  event (fun s =>
    match takeFirst (fun h => h.1 == r) s.out.calendarStates with
    | none => s
    | some (h, rest) => takeCalendarState h.1 h.2 { s with out := { s.out with calendarStates := rest } }) s

end Sys2Proof.Machine
end

