-- ==== Sys2Proof/Machine/Monitor.lean ====
section
/-! DEFINITION. The Condition Monitor (chapter 9): the dispatch history, the three attributes and the three
corrections. -/

namespace Sys2Proof.Machine

/-! ## The dispatch history (R150) -/

/-- The history rotated `n` times. -/
def rotateBuckets (n : Nat) (bs : List DispatchBucket) : List DispatchBucket :=
  (List.replicate n ({ } : DispatchBucket) ++ bs).take bs.length

/-- The clock's boundary at a minute: one rotation if the minute is later than the newest bucket's. -/
def rotateAtMinute (minute : Nat) (m : Monitor) : Monitor :=
  if m.newestMinute < minute then { m with buckets := rotateBuckets 1 m.buckets, newestMinute := minute } else m

/-- A record's minute that is later than the newest bucket's: one rotation for each minute up to it. -/
def rotateToRecord (minute : Nat) (m : Monitor) : Monitor :=
  if m.newestMinute < minute then
    { m with buckets := rotateBuckets (minute - m.newestMinute) m.buckets, newestMinute := minute }
  else m

/-- Riders and pass riders added to a bucket, each count staying at 65,535. -/
def addToBucket (riders passPart : Nat) (b : DispatchBucket) : DispatchBucket :=
  { dispatched := min Config.bucketMax (b.dispatched + riders), passes := min Config.bucketMax (b.passes + passPart) }

/-- The place of a minute's bucket counted from the newest: the newest itself where the history holds no bucket for
the minute. -/
def bucketPlace (minute : Nat) (m : Monitor) : Nat :=
  let back := m.newestMinute - minute
  if back < m.buckets.length then back else 0

/-- R150: a dispatch record. -/
def takeRecord (d : DispatchRecord) (s : State) : State :=
  if inDay s.day.phase then
    let minute := d.time / 60
    let m := rotateToRecord minute (look s.monitors d.ride)
    let m' := { m with buckets := m.buckets.modify (bucketPlace minute m) (addToBucket d.riders d.passPart) }
    { s with monitors := put s.monitors d.ride m' }
  else s

/-- R150: every ride's history rotates at the clock's minute. -/
def rotateHistories (s : State) : State := { s with monitors := tmap (rotateAtMinute (minuteNow s)) s.monitors }

/-! ## The attributes -/

/-- R152: the buckets of the fifteen minutes before a window's end. -/
def spanBuckets (m : Monitor) (stop : Nat) : List DispatchBucket :=
  (m.buckets.zipIdx.filter fun x =>
    decide (x.2 ≤ m.newestMinute) && decide (stop ≤ m.newestMinute - x.2 + 15) &&
      decide (m.newestMinute - x.2 < stop)).map Prod.fst

/-- R152: THROUGHPUT from the riders dispatched in the span. -/
def throughputValue (hourlyCapacity riders : Nat) : Nat :=
  if hourlyCapacity = 0 then 200 else min 200 (riders * 4 * 100 / hourlyCapacity)

/-- R153: NO_SHOW from the sums of EXPIRED and REDEEMED. -/
def noShowValue (expired redeemed : Nat) : Nat :=
  if redeemed + expired = 0 then 0 else expired * 100 / (redeemed + expired)

/-- R154: MERGE_LOAD from the pass riders and the riders of the span. -/
def mergeLoadValue (passes riders : Nat) : Nat := if riders = 0 then 0 else passes * 100 / riders

/-- R155: an attribute record after a new value; `worse` chooses the worst value, `beyond` compares the value with a
threshold above 0. -/
def updateAttribute (worse : Nat → Nat → Nat) (beyond : Nat → Nat → Bool) (threshold value : Nat)
    (a : AttributeRecord) : AttributeRecord :=
  let exceeded := decide (0 < threshold) && beyond value threshold
  { current := some value
    worst := some (a.worst.elim value (worse value))
    exceeded := exceeded
    exceedCount := if exceeded && !a.exceeded then min Config.bucketMax (a.exceedCount + 1) else a.exceedCount }

/-- R155: THROUGHPUT is exceeded below its threshold, its worst value is the lowest. -/
def updateLow (threshold value : Nat) (a : AttributeRecord) : AttributeRecord :=
  updateAttribute min (fun v t => decide (v < t)) threshold value a

/-- R155: NO_SHOW and MERGE_LOAD are exceeded above their thresholds, their worst value is the highest. -/
def updateHigh (threshold value : Nat) (a : AttributeRecord) : AttributeRecord :=
  updateAttribute max (fun v t => decide (t < v)) threshold value a

/-- R155: an attribute goes from not exceeded to exceeded. -/
def enters (before after : AttributeRecord) : Bool := after.exceeded && !before.exceeded

/-! ## The corrections -/

/-- R156: the derate percent. -/
def derateOf (f : CapacityFields) (exceeded : Bool) (value : Nat) : Nat :=
  if exceeded then min 100 (max value f.derateFloor) else 100

/-- R156: the overbook percent. -/
def overbookOf (f : CapacityFields) (exceeded : Bool) (value : Nat) : Nat :=
  if exceeded then min value f.overbookCap else 0

/-- R157: the throttle. Above PASS_SHARE with MERGE_LOAD exceeded it comes down to PASS_SHARE with a THROTTLE_STEP of 0 too
(log 39). -/
def throttleOf (f : CapacityFields) (exceeded : Bool) (throttle : Nat) : Nat :=
  if exceeded then min (throttle + f.throttleStep) f.passShare else throttle - f.throttleStep

/-- R151, steps 2 to 5: the monitor of a ride after an evaluation with the capacity fields `f` in effect. -/
def evaluateMonitor (f : CapacityFields) (noShow : Nat × Nat) (window stop : Nat) (m : Monitor) : Monitor :=
  let span := spanBuckets m stop
  let riders := (span.map DispatchBucket.dispatched).sum
  let passes := (span.map DispatchBucket.passes).sum
  let tv := throughputValue f.hourlyCapacity riders
  let mv := mergeLoadValue passes riders
  let nv := noShowValue noShow.1 noShow.2
  let t := updateLow f.throughputThreshold tv m.throughput
  let n := updateHigh f.noshowThreshold nv m.noShow
  let g := updateHigh f.mergeloadThreshold mv m.mergeLoad
  { m with
    throughput := t
    noShow := n
    mergeLoad := g
    derate := derateOf f t.exceeded tv
    overbook := overbookOf f n.exceeded nv
    throttle := throttleOf f g.exceeded m.throttle
    evaluations := m.evaluations + 1
    lastEvaluation := some (window, stop) }

/-- R155: at least one attribute enters exceeded between two monitors of a ride. -/
def anyEnters (before after : Monitor) : Bool :=
  enters before.throughput after.throughput || enters before.noShow after.noShow ||
    enters before.mergeLoad after.mergeLoad

/-- R19: the ride's capacity fields take their written values as the values in effect. -/
def bringIntoEffect (e : RideEntry) : RideEntry := { e with inEffect := e.written }

/-- R151: an evaluation. -/
def takeEvaluation (h : EvaluationHandoff) (s : State) : State :=
  if inDay s.day.phase then
    let s1 := { s with rideTable := upd s.rideTable h.ride bringIntoEffect }
    let f := (rideEntry s1 h.ride).inEffect
    let m := look s1.monitors h.ride
    let m' := evaluateMonitor f (noShowLookup s1 h.ride) h.window h.stop m
    let s2 := { s1 with monitors := put s1.monitors h.ride m' }
    let s3 := if anyEnters m m' then raise .attrExceeded s2 else s2
    { s3 with out := { s3.out with recomputations :=
        s3.out.recomputations ++ [⟨h.ride, m'.derate, m'.overbook, m'.throttle, f⟩] } }
  else s

/-- R149: every ride's state set up afresh. -/
def freshMonitors (minute : Nat) : Table 48 Monitor := filled 48 { newestMinute := minute }

/-! ## The meanings -/

/-- DISPATCH_RECORD: the oldest outstanding dispatch record of the ride is taken (R33, R150). -/
def execDispatchRecord (r : Ride) (s : State) : Result :=
  event (fun s =>
    match takeFirst (fun h => h.ride == r) s.out.records with
    | none => s
    | some (h, rest) => takeRecord h { s with out := { s.out with records := rest } }) s

/-- EVALUATION: the oldest outstanding evaluation hand-off of the ride is taken (R151). -/
def execEvaluation (r : Ride) (s : State) : Result :=
  event (fun s =>
    match takeFirst (fun h => h.ride == r) s.out.evaluations with
    | none => s
    | some (h, rest) => takeEvaluation h { s with out := { s.out with evaluations := rest } }) s

end Sys2Proof.Machine
end

