-- ==== Sys2Proof/Machine/Walker.lean ====
section
/-! DEFINITION. The Calendar Walker (chapter 7): the work list, the steps, PASS_CHANGE, completion and the displacing
condition. -/

namespace Sys2Proof.Machine

/-- R114: the walker state. -/
inductive WalkerState where
  | idle | stepping | waiting
deriving DecidableEq, Repr

/-- R114, R116, R122: WAITING while a PASS_CHANGE waits, else STEPPING while an item is in progress, else IDLE. -/
def walkerState (w : Walker) : WalkerState :=
  if w.waiting.isSome then .waiting else if w.item.isSome then .stepping else .idle

/-- R87, R114: a ride is displacing while its count is above 0. -/
def isDisplacing (s : State) (r : Ride) : Bool := decide (0 < look s.walker.displacing r)

/-- R116, R123: the head item is taken off the list into progress; an empty list leaves none. -/
def takeItem (w : Walker) : Walker :=
  match w.workList with
  | [] => { w with item := none }
  | i :: rest => { w with workList := rest, item := some i }

/-- R115: a DISPLACE item that joins raises its ride's displacing count. -/
def countItem (d : Table 48 Nat) (i : WorkItem) : Table 48 Nat :=
  if i.kind = .displace then upd d i.ride (· + 1) else d

/-- R48, R115: the items of one hand-off join the tail one behind another in the one event; in IDLE the head item is taken
at once (R116). Taken in NIGHT or CHECKING they are discarded. -/
def takeWorkItems (is : List WorkItem) (s : State) : State :=
  if inDay s.day.phase then
    let w := s.walker
    let w1 := { w with workList := w.workList ++ is, displacing := is.foldl countItem w.displacing }
    { s with walker := if walkerState w = .idle then takeItem w1 else w1 }
  else s

/-- R48: the hand-off has an item for window `k` of the ride. -/
def handsItem (r : Ride) (k : Nat) (is : List WorkItem) : Bool := is.any fun i => decide (i.ride = r ∧ i.window = k)

/-! ## Completion (R123) -/

/-- R123: the item in progress completes: it becomes none, a DISPLACE item's ride loses one of its displacing count,
and a count that reaches 0 hands the Pass Engine the end of the ride's displacement. -/
def completeItem (i : WorkItem) (s : State) : State :=
  let w := { s.walker with item := none }
  if i.kind = .displace then
    let n := look w.displacing i.ride - 1
    let s1 := { s with walker := { w with displacing := put w.displacing i.ride n } }
    if n = 0 then { s1 with out := { s1.out with displacementEnds := s1.out.displacementEnds ++ [i.ride] } } else s1
  else { s with walker := w }

/-- R123: the Walker takes the next item, or becomes IDLE through a completion and sets WALK_IDLE. -/
def nextItem (s : State) : State :=
  match s.walker.workList with
  | [] => raise .walkIdle s
  | _ :: _ => { s with walker := takeItem s.walker }

/-- R121, R122: a step's PASS_CHANGE is written into the TRUNK part output queue, or waits. -/
def sendChange (f : Option PartFrame) (s : State) : State :=
  match f with
  | none => s
  | some f =>
    if hasRoom s.trunkPort then writeFrame .trunk f s
    else
      let s1 := beginWait .trunk .walker s
      { s1 with walker := { s1.walker with waiting := some f } }

/-- After a step's claim: its message, its completion if no holder is left, and the next item unless the Walker
waits (R117, R122, R123). -/
def finishStep (i : WorkItem) (f : Option PartFrame) (left : Nat) (s : State) : State :=
  if left = 0 then
    let s1 := sendChange f (completeItem i s)
    if s1.walker.waiting.isSome then s1 else nextItem s1
  else sendChange f s

/-- R121: the PASS_CHANGE of a step; none while GATEWAY_ADDRESS is 0. -/
def changeFrame (s : State) (r : Ride) (h : Holder) (reason : ChangeReason) (oldStart : Nat) (target : Option (Nat × Nat))
    (moves : Nat) : Option PartFrame :=
  if s.day.park.gatewayAddress = 0 then none
  else some ⟨s.day.park.gatewayAddress,
    .passChange h.credential (rideEntry s r).label h.party reason oldStart target moves⟩

/-- MOVES of a guest's pass for a ride. -/
def movesOf (s : State) (c : Credential) (r : Ride) : Nat := (passOf c r s.guests).elim 0 Pass.moves

/-- R118: whether the pass of the window's head holder may be shifted. -/
def mayShift (s : State) (i : WorkItem) : Bool :=
  match ((windowOf s i.ride i.window).map Window.holders).bind List.head? with
  | none => false
  | some h => decide ((rideEntry s i.ride).displacePolicy = .shift) && decide (movesOf s h.credential i.ride < 2)

/-- R130: the walk count of a step's ride rises. -/
def countShifted (c : RideCounts) : RideCounts := { c with shifted := countUp c.shifted 1 }
def countFlexed (c : RideCounts) : RideCounts := { c with flexed := countUp c.flexed 1 }
def countExpired (c : RideCounts) : RideCounts := { c with expired := countUp c.expired 1 }

/-- R118: a DISPLACE step. -/
def displaceStep (i : WorkItem) (s : State) : State :=
  match displaceClaim i.ride i.window (mayShift s i) s with
  | none => finishStep i none 0 s
  | some (d, s1) =>
    let moves := movesOf s1 d.holder.credential i.ride
    match d.target with
    | some (_, start, stop) =>
      finishStep i (changeFrame s1 i.ride d.holder .shifted d.oldStart (some (start, stop)) moves) d.left
        (changeCounts i.ride countShifted s1)
    | none =>
      finishStep i (changeFrame s1 i.ride d.holder .flexed d.oldStart none moves) d.left
        (changeCounts i.ride countFlexed s1)

/-- R120: an EXPIRE step. -/
def expireStep (i : WorkItem) (s : State) : State :=
  match expireClaim i.ride i.window s with
  | none => finishStep i none 0 s
  | some (e, s1) =>
    finishStep i (changeFrame s1 i.ride e.holder .expired e.oldStart none 0) e.left (changeCounts i.ride countExpired s1)

/-- R122: the waiting PASS_CHANGE is written, and the Walker goes on: STEPPING with an item in progress, else the next
item or IDLE, with WALK_IDLE set unless the day was closed meanwhile (R132, log 14). -/
def writeChange (f : PartFrame) (s : State) : State :=
  let s1 := writeFrame .trunk f (endWait .trunk .walker s)
  let abandoned := s1.walker.abandoned
  let s2 := { s1 with walker := { s1.walker with waiting := none, abandoned := false } }
  if s2.walker.item.isSome then s2
  else if abandoned && s2.walker.workList.isEmpty then s2
  else nextItem s2

/-- R132: the day-close action at the Walker. A waiting PASS_CHANGE still waits. -/
def abandonWalk (w : Walker) : Walker :=
  { w with workList := [], item := none, displacing := filled 48 0, abandoned := w.waiting.isSome }

/-! ## The meanings -/

/-- WORK_ITEM_HANDOFF: the Walker takes the oldest outstanding hand-off that has an item for the window, with all the
items of that hand-off (R48, R115, R123). -/
def execWorkItemHandoff (r : Ride) (k : Nat) (s : State) : Result :=
  event (fun s =>
    match takeFirst (handsItem r k) s.out.workItems with
    | none => s
    | some (is, rest) => takeWorkItems is { s with out := { s.out with workItems := rest } }) s

/-- DISPLACE_STEP: in STEPPING on a DISPLACE item (R117, R118). -/
def execDisplaceStep (s : State) : Result :=
  event (fun s =>
    match walkerState s.walker, s.walker.item with
    | .stepping, some i => if i.kind = .displace then displaceStep i s else s
    | _, _ => s) s

/-- EXPIRE_STEP: in STEPPING on an EXPIRE item (R117, R120). -/
def execExpireStep (s : State) : Result :=
  event (fun s =>
    match walkerState s.walker, s.walker.item with
    | .stepping, some i => if i.kind = .expire then expireStep i s else s
    | _, _ => s) s

/-- PASS_CHANGE_WRITE: room has appeared for the waiting PASS_CHANGE (R122). -/
def execPassChangeWrite (s : State) : Result :=
  event (fun s =>
    match s.walker.waiting with
    | none => s
    | some f => if hasTurn s.trunkPort .walker then writeChange f s else s) s

end Sys2Proof.Machine
end

