-- ==== Sys2Proof/Machine/Passes.lean ====
section
/-! DEFINITION. The Pass Engine and the Request Arbiter (chapter 5): the request queues, the arbiter, the judging of
requests, the held list, and the replies. -/

namespace Sys2Proof.Machine

/-! ## Replies -/

/-- A PASS_REPLY to a request: its port, its source, its tag (R80). -/
def replyFrame (q : Request) (result : PassResult) : Port × PartFrame := (q.port, ⟨q.source, .passReply q.tag result⟩)

/-- R80: the Pass Engine writes replies in order, or waits with them. -/
def engineSend (fs : List (Port × PartFrame)) (s : State) : State :=
  let x := send .passEngine s.engine.outbox fs s
  { x.1 with engine := { x.1.engine with outbox := x.2 } }

/-- R80: the Pass Engine waits for room, and takes no event of its own. -/
def engineWaits (s : State) : Bool := !s.engine.outbox.isEmpty

/-! ## The queues and their intakes (R78, R79, R172) -/

/-- R78: the queue of a port's requests. -/
def queueOfPort (s : State) : Port → List Request
  | .field => s.engine.kiosk
  | .trunk => s.engine.remote

def queuePlaces : Port → Nat
  | .field => Config.kioskPlaces
  | .trunk => Config.remotePlaces

def setQueue (p : Port) (qs : List Request) (s : State) : State :=
  match p with
  | .field => { s with engine := { s.engine with kiosk := qs } }
  | .trunk => { s with engine := { s.engine with remote := qs } }

/-- R78: the ORIGIN of the requests of a port's queue. -/
def originOf : Port → Origin
  | .field => .kiosk
  | .trunk => .remote

def portOfOrigin : Origin → Port
  | .kiosk => .field
  | .remote => .trunk

/-- R79: the intake of the port's request queue writes a QUEUE_FULL reply, or waits with it. -/
def answerFull (q : Request) (s : State) : State :=
  let f := (replyFrame q .queueFull).2
  if hasRoom (portOf s q.port) then writeFrame q.port f s
  else
    let s1 := beginWait q.port .requestIntake s
    setPort s1 q.port { portOf s1 q.port with fullReply := some f }

/-- R78, R79: a request joins the tail of its queue, or is answered QUEUE_FULL. -/
def joinQueue (q : Request) (s : State) : State :=
  if (queueOfPort s q.port).length < queuePlaces q.port then setQueue q.port (queueOfPort s q.port ++ [q]) s
  else answerFull q s

/-- R172: a request sorted while its intake waits is held by the Classifier. -/
def sortRequest (q : Request) (s : State) : State :=
  if (portOf s q.port).fullReply.isSome then
    setPort s q.port { portOf s q.port with heldRequest := some q }
  else joinQueue q s

/-- R79, R172: the waiting QUEUE_FULL is written, and the request the Classifier holds is judged. -/
def writeFull (p : Port) (f : PartFrame) (s : State) : State :=
  let s1 := writeFrame p f (endWait p .requestIntake s)
  let held := (portOf s1 p).heldRequest
  let s2 := setPort s1 p { portOf s1 p with fullReply := none, heldRequest := none }
  match held with
  | none => s2
  | some q => joinQueue q s2

/-! ## The arbiter -/

/-- R82: FIXED. -/
def pickFixed (kiosk remote : List Request) : Option Origin :=
  if !kiosk.isEmpty then some .kiosk else if !remote.isEmpty then some .remote else none

/-- R83: SHARE. -/
def pickShare (last : Option Origin) (run limit : Nat) (kiosk remote : List Request) : Option Origin :=
  if kiosk.isEmpty || remote.isEmpty then pickFixed kiosk remote
  else match last with
    | none => some .kiosk
    | some .kiosk => if run < limit then some .kiosk else some .remote
    | some .remote => if run < limit then some .remote else some .kiosk

/-- R81, step 2: the queue whose head is picked. -/
def pickQueue (s : State) : Option Origin :=
  match s.day.park.arbiterMode with
  | .fixed => pickFixed s.engine.kiosk s.engine.remote
  | .share => pickShare s.engine.lastQueue s.engine.run s.day.park.runLimit s.engine.kiosk s.engine.remote

/-- R81, step 1: a held entry is servable. -/
def servableHeld (s : State) : Bool := s.engine.heldList.any HeldEntry.servable

/-- R80, R81: the request of a queue that is picked now, with the queue's rest: the Pass Engine does not wait and no
held entry is servable. -/
def pickedRequest (s : State) : Option (Origin × Request × List Request) :=
  if engineWaits s || servableHeld s then none
  else match pickQueue s with
    | none => none
    | some o =>
      match queueOfPort s (portOfOrigin o) with
      | [] => none
      | q :: rest => some (o, q, rest)

/-- R84: the run counter after a queue serve. -/
def countServe (o : Origin) (e : PassEngine) : PassEngine :=
  if e.lastQueue = some o then { e with run := min Config.runMax (e.run + 1) } else { e with lastQueue := some o, run := 1 }

/-! ## Judging a PASS_REQUEST (R85 to R87, R92) -/

/-- No label stands in the list twice. -/
def labelsDistinct : List Label → Bool
  | [] => true
  | l :: ls => !ls.contains l && labelsDistinct ls

/-- R85: a field of the request is out of range. -/
def badRequest (c : Credential) (party count : Nat) (labels : List Label) (earliest latest : Option Nat) : Bool :=
  !validCredential c || party == 0 || decide (8 < party) || count == 0 || decide (3 < count) || !labelsDistinct labels ||
    earliest.any (fun e => decide (1439 < e)) || latest.any (fun l => decide (1439 < l)) ||
    match earliest, latest with
    | some e, some l => decide (l < e)
    | _, _ => false

/-- R85: the phases in which passes are granted. -/
def grantsPasses : Phase → Bool
  | .night => false
  | .checking => false
  | .preopen => true
  | .opened => true
  | .lastCall => false

/-- R86: the reason of a ride's state. -/
def stateRefusal : RideState → Option Reason
  | .up => none
  | .suspect => some .ridePaused
  | .down => some .rideDown
  | .closed => some .rideClosed
  | .off => some .unknownRide

/-- R86: the first check that fails for a ride found by its label. -/
def rideRefusal (s : State) (c : Credential) (r : Ride) : Option Reason :=
  match stateRefusal (rideState s r) with
  | some x => some x
  | none => guestRefusal s.day.park.passesPerGuest c r s.guests

/-- What judging a request ride by ride comes to. Every reason stands with the ride it belongs to (R94). -/
inductive Judgement where
  | grant (ride : Ride) (label : Label) (window : Nat) (earlier : List (Option Ride × Reason))
  | refused (reasons : List (Option Ride × Reason))
  | setAside (ride : Ride)
deriving DecidableEq, Repr

/-- R86, R87, R92: the listed rides in order. `tried` says that the candidate has already been searched. -/
def judgeRides (s : State) (c : Credential) (party : Nat) (earliest latest : Option Nat) :
    List Label → Bool → List (Option Ride × Reason) → Judgement
  | [], _, reasons => .refused reasons
  | l :: ls, tried, reasons =>
    match rideByLabel s l with
    | none => judgeRides s c party earliest latest ls tried (reasons ++ [(none, .unknownRide)])
    | some r =>
      match rideRefusal s c r with
      | some x => judgeRides s c party earliest latest ls tried (reasons ++ [(some r, x)])
      | none =>
        if !tried && isDisplacing s r then .setAside r
        else match grantWindow s r party earliest latest with
          | some k => .grant r l k reasons
          | none => judgeRides s c party earliest latest ls true (reasons ++ [(some r, .soldOut)])

/-- R94: each reason raises the refused count of its ride. -/
def countReasons (reasons : List (Option Ride × Reason)) (s : State) : State :=
  reasons.foldl (fun s x => match x.1 with
    | none => s
    | some r => changeCounts r (fun c => { c with refused := countUp c.refused 1 }) s) s

/-- R64: each failed room check sets GUEST_FULL. -/
def flagFull (reasons : List (Option Ride × Reason)) (s : State) : State :=
  reasons.foldl (fun s x => if x.2 = .tableFull then raise .guestFull s else s) s

/-- What serving a request comes to: its reply, or that it is to be set aside for a ride. -/
inductive Served where
  | reply (result : PassResult)
  | aside (ride : Ride)
deriving DecidableEq, Repr

/-- R85 to R87, R92 to R94: a PASS_REQUEST is judged, with every effect but its reply. -/
def judgeRequest (origin : Origin) (c : Credential) (party count : Nat) (labels : List Label)
    (earliest latest : Option Nat) (s : State) : Served × State :=
  if !grantsPasses s.day.phase then (.reply .phaseClosed, s)
  else if badRequest c party count labels earliest latest then (.reply .badRequest, s)
  else match judgeRides s c party earliest latest labels false [] with
    | .setAside r => (.aside r, s)
    | .refused reasons => (.reply (.refused (reasons.map Prod.snd)), countReasons reasons (flagFull reasons s))
    | .grant r l k earlier =>
      let w := (windowOf s r k).map fun w => (w.start, w.stop)
      (.reply (.grant l party (w.elim 0 Prod.fst) (w.elim 0 Prod.snd) (earlier.map Prod.snd)),
        changeCounts r (fun c => { c with granted := countUp c.granted 1 })
          (countReasons earlier (flagFull earlier (placeGrant r k c party origin s))))

/-! ## Cancels and lists -/

/-- R71: a PASS_CANCEL is served. -/
def serveCancel (c : Credential) (l : Label) (s : State) : PassResult × State :=
  if !inDay s.day.phase then (.phaseClosed, s)
  else match rideByLabel s l with
    | none => (.notFound, s)
    | some r =>
      if !validCredential c then (.notFound, s)
      else match removalClaim c r s with
        | none => (.notFound, s)
        | some (x, s1) =>
          (.cancelled l x.party x.start, changeCounts r (fun n => { n with cancelled := countUp n.cancelled 1 }) s1)

/-- R70: the entry of a pass in a LISTED reply. -/
def listedPass (s : State) (p : Pass) : ListedPass :=
  { label := (rideEntry s p.ride).label, party := p.party, state := passState s p, span := passSpan s p }

/-- R70: a PASS_LIST is served. -/
def serveList (c : Credential) (s : State) : PassResult :=
  if !inDay s.day.phase then .phaseClosed
  else if !validCredential c then .listed []
  else .listed (((guestOf c s.guests).elim [] Guest.passes).map (listedPass s))

/-! ## Serving -/

/-- A queue serve ends with a reply: the run counter is kept (R84) and the reply is written (R80). -/
def replyFromQueue (o : Origin) (q : Request) (result : PassResult) (s : State) : State :=
  engineSend [replyFrame q result] { s with engine := countServe o s.engine }

/-- R88: a set-aside request joins the held list, or is answered RETRY when the list is full. -/
def setAside (o : Origin) (q : Request) (r : Ride) (s : State) : State :=
  if s.engine.heldList.length < Config.heldPlaces then
    { s with engine := { s.engine with heldList := s.engine.heldList ++ [⟨q, r, 0, false, false⟩] } }
  else replyFromQueue o q .retry s

/-- PASS_REQUEST served from a queue head. -/
def servePassRequest (o : Origin) (q : Request) (c : Credential) (party count : Nat) (labels : List Label)
    (earliest latest : Option Nat) (s : State) : State :=
  match judgeRequest o c party count labels earliest latest s with
  | (.reply result, s1) => replyFromQueue o q result s1
  | (.aside r, s1) => setAside o q r s1

/-- R91: the oldest servable entry with its place in the held list. -/
def firstServable (es : List HeldEntry) : Option (Nat × HeldEntry) :=
  match es.findIdx? HeldEntry.servable with
  | none => none
  | some i => (es[i]?).map fun e => (i, e)

/-- R91: a servable held entry leaves the list and is judged afresh; set aside again, it returns to its place. -/
def serveHeldEntry (i : Nat) (e : HeldEntry) (s : State) : State :=
  let s0 := { s with engine := { s.engine with heldList := s.engine.heldList.eraseIdx i } }
  match e.request.body with
  | .pass c party count labels earliest latest =>
    match judgeRequest (originOf e.request.port) c party count labels earliest latest s0 with
    | (.reply result, s1) => engineSend [replyFrame e.request result] s1
    | (.aside r, s1) =>
      let back := { e with ride := r, servable := false, expiring := false }
      { s1 with engine := { s1.engine with heldList := s1.engine.heldList.insertIdx i back } }
  | .cancel c l =>
    let x := serveCancel c l s0
    engineSend [replyFrame e.request x.1] x.2
  | .list c => engineSend [replyFrame e.request (serveList c s0)] s0

/-! ## Hold timers and releases -/

/-- R89: the hold timer of an entry at an advance of the clock. -/
def holdSecond (limit : Nat) (e : HeldEntry) : HeldEntry :=
  if e.servable then e
  else { e with elapsed := e.elapsed + 1, expiring := e.expiring || decide (limit ≤ e.elapsed + 1) }

/-- R89: the first entry whose expiry is due leaves the list and is answered RETRY. -/
def expireHeld (s : State) : State :=
  match takeFirst HeldEntry.expiring s.engine.heldList with
  | none => s
  | some (e, rest) =>
    engineSend [replyFrame e.request .retry] { s with engine := { s.engine with heldList := rest } }

/-- R80, R89: due expiries are taken in held-list order, as long as the Pass Engine does not wait. The list holds at
most 8 entries, so 8 rounds take them all. -/
def expireAllHeld : Nat → State → State
  | 0, s => s
  | n + 1, s => if engineWaits s then s else expireAllHeld n (expireHeld s)

/-- R90: an entry becomes servable, unless it has already reached its limit (log 13). -/
def releaseEntry (e : HeldEntry) : HeldEntry := if e.expiring then e else { e with servable := true }

/-- R90: the end of a ride's displacement. -/
def releaseRide (r : Ride) (e : HeldEntry) : HeldEntry := if e.ride = r then releaseEntry e else e

def changeHeld (f : HeldEntry → HeldEntry) (s : State) : State :=
  { s with engine := { s.engine with heldList := s.engine.heldList.map f } }

/-- R15, R96: the day-close action at the Pass Engine: the held list, the kiosk queue and the remote queue are emptied
in that order, each request answered PHASE_CLOSED behind a reply that already waits. -/
def closeEngine (s : State) : State :=
  let qs := s.engine.heldList.map HeldEntry.request ++ s.engine.kiosk ++ s.engine.remote
  engineSend (qs.map fun q => replyFrame q .phaseClosed)
    { s with engine := { s.engine with kiosk := [], remote := [], heldList := [], lastQueue := none, run := 0 } }

/-! ## The meanings -/

/-- QUEUE_FULL_WRITE: room has appeared for the waiting QUEUE_FULL reply of a port (R79, R172). -/
def execQueueFullWrite (p : Port) (s : State) : Result :=
  event (fun s =>
    match (portOf s p).fullReply with
    | none => s
    | some f => if hasTurn (portOf s p) .requestIntake then writeFull p f s else s) s

/-- PASS_REQUEST: the request picked from a queue head is a PASS_REQUEST (R80, R85). -/
def execPassRequest (s : State) : Result :=
  event (fun s =>
    match pickedRequest s with
    | some (o, q, rest) =>
      match q.body with
      | .pass c party count labels earliest latest =>
        servePassRequest o q c party count labels earliest latest (setQueue (portOfOrigin o) rest s)
      | _ => s
    | none => s) s

/-- HELD_SERVE: the oldest servable held entry is picked (R81, R91). -/
def execHeldServe (s : State) : Result :=
  event (fun s =>
    if engineWaits s then s
    else match firstServable s.engine.heldList with
      | none => s
      | some (i, e) => serveHeldEntry i e s) s

/-- PASS_CANCEL: the request picked from a queue head is a PASS_CANCEL (R71, R95). -/
def execPassCancel (s : State) : Result :=
  event (fun s =>
    match pickedRequest s with
    | some (o, q, rest) =>
      match q.body with
      | .cancel c l =>
        let x := serveCancel c l (setQueue (portOfOrigin o) rest s)
        replyFromQueue o q x.1 x.2
      | _ => s
    | none => s) s

/-- PASS_LIST: the request picked from a queue head is a PASS_LIST (R70, R95). -/
def execPassList (s : State) : Result :=
  event (fun s =>
    match pickedRequest s with
    | some (o, q, rest) =>
      match q.body with
      | .list c =>
        let s1 := setQueue (portOfOrigin o) rest s
        replyFromQueue o q (serveList c s1) s1
      | _ => s
    | none => s) s

/-- PASS_REPLY_WRITE: room has appeared for the reply the Pass Engine waits with; the replies behind it follow as far as
there is room, and due hold expiries are taken once none waits (R80). -/
def execPassReplyWrite (s : State) : Result :=
  event (fun s =>
    if canResume .passEngine s.engine.outbox s then
      let x := resume .passEngine s.engine.outbox s
      expireAllHeld Config.heldPlaces { x.1 with engine := { x.1.engine with outbox := x.2 } }
    else s) s

/-- END_OF_DISPLACEMENT: the Pass Engine takes the end of the ride's displacement (R90). -/
def execEndOfDisplacement (r : Ride) (s : State) : Result :=
  event (fun s =>
    if engineWaits s then s
    else match takeFirst (fun h => h == r) s.out.displacementEnds with
      | none => s
      | some (_, rest) => changeHeld (releaseRide r) { s with out := { s.out with displacementEnds := rest } }) s

/-- LAST_CALL_RELEASE: the Pass Engine takes the hand-off of a change to LAST_CALL (R90). -/
def execLastCallRelease (s : State) : Result :=
  event (fun s =>
    if engineWaits s || s.out.lastCalls == 0 then s
    else changeHeld releaseEntry { s with out := { s.out with lastCalls := s.out.lastCalls - 1 } }) s

end Sys2Proof.Machine
end

