-- ==== Sys2Proof/Machine/Admission.lean ====
section
/-! DEFINITION. The Admission Unit (chapter 6): the judging of taps, the verdicts, observing, and waiting for room; with
the delivery of the field intake (R97) on which it bears. -/

namespace Sys2Proof.Machine

/-! ## Delivery of the field intake (R97, R113) -/

/-- R113: the Admission Unit waits with a verdict or a copy; the field intake then delivers nothing. -/
def admissionWaits (s : State) : Bool := !s.admission.outbox.isEmpty

/-- R97: the head of the field intake is delivered. -/
def deliver (s : State) : Option (FieldEntry × State) :=
  if admissionWaits s then none
  else match s.fieldIntake with
    | [] => none
    | e :: rest => some (e, { s with fieldIntake := rest })

/-- R170: the clock time of an entry: that of its sorting, or of its delivery if it was sorted while the clock was
UNSET. -/
def entryTime (e : FieldEntry) (s : State) : Nat := e.time.getD (clockNow s)

/-! ## Verdicts -/

/-- R104: the verdict of a tap. -/
def verdictFrame (s : State) (e : FieldEntry) (r : Ride) (result : VerdictResult) (party minutes : Option Nat) (tag : Tag) :
    PartFrame :=
  ⟨e.source, .verdict (rideEntry s r).label result party minutes tag⟩

/-- R104, R113: the verdict is written into the FIELD queue, and under OWN_COPY a copy into the TRUNK queue behind it;
or the Admission Unit waits. -/
def sendVerdict (mode : ActedMode) (f : PartFrame) (s : State) : State :=
  let fs := match mode with
    | .ownCopy => [(Port.field, f), (Port.trunk, f)]
    | .own => [(Port.field, f)]
    | .observe => []
  let x := send .admission s.admission.outbox fs s
  { x.1 with admission := { outbox := x.2 } }

/-- A judgement: the verdict with PARTY and MINUTES, and the state with its effects. -/
structure Verdict where
  result : VerdictResult
  party : Option Nat
  minutes : Option Nat
deriving DecidableEq, Repr

def refusal (v : VerdictResult) : Verdict := ⟨v, none, none⟩

/-! ## Judging -/

/-- R106: the refused count of a role rises. -/
def countRefused (role : Role) (c : RideCounts) : RideCounts :=
  match role with
  | .standbyEntry => { c with standbyRefused := countUp c.standbyRefused 1 }
  | .passMerge => { c with mergeRefused := countUp c.mergeRefused 1 }

/-- R106: the admitted count of a role rises. -/
def countAdmitted (role : Role) (c : RideCounts) : RideCounts :=
  match role with
  | .standbyEntry => { c with standbyAdmitted := countUp c.standbyAdmitted 1 }
  | .passMerge => { c with mergeAdmitted := countUp c.mergeAdmitted 1 }

/-- R100, R111: a standby hand-off. -/
def handStandby (r : Ride) (headCount time : Nat) (s : State) : State :=
  { s with out := { s.out with standbys := s.out.standbys ++ [⟨r, headCount, time⟩] } }

/-- R30, R102, R112: an addition to a ride's pass credit. -/
def handCredit (r : Ride) (n : Nat) (s : State) : State :=
  { s with out := { s.out with credits := s.out.credits ++ [(r, n)] } }

/-- R100: a STANDBY_ENTRY tap. -/
def judgeStandby (r : Ride) (headCount time : Nat) (s : State) : Verdict × State :=
  match rideState s r with
  | .up => (⟨.admitStandby, some headCount, none⟩,
      handStandby r headCount time (changeCounts r (countAdmitted .standbyEntry) s))
  | .suspect => (⟨.admitStandby, some headCount, none⟩,
      handStandby r headCount time (changeCounts r (countAdmitted .standbyEntry) s))
  | .down => (refusal .refuseRideDown, changeCounts r (countRefused .standbyEntry) s)
  | .closed => (refusal .refuseRideClosed, changeCounts r (countRefused .standbyEntry) s)
  | .off => (refusal .refuseRideClosed, changeCounts r (countRefused .standbyEntry) s)

/-- R101: the verdict of a redemption claim's outcome. -/
def verdictOf : Redemption → Verdict
  | .noPass => refusal .refuseNoPass
  | .early minutes => ⟨.refuseEarly, none, some minutes⟩
  | .redeemed party => ⟨.admitPass, some party, none⟩
  | .expired => refusal .refuseExpired
  | .redeemedFlex party => ⟨.admitFlex, some party, none⟩
  | .stopped .down => refusal .refuseRideDown
  | .stopped .closed => refusal .refuseRideClosed
  | .stopped .off => refusal .refuseRideClosed
  | .stopped .up => refusal .refuseRideClosed
  | .stopped .suspect => refusal .refuseRideClosed

/-- R102: the party an outcome adds to the pass credit. -/
def admittedParty : Redemption → Option Nat
  | .redeemed party => some party
  | .redeemedFlex party => some party
  | .noPass => none
  | .early _ => none
  | .expired => none
  | .stopped _ => none

/-- R101, R102: a PASS_MERGE tap. -/
def judgeMerge (c : Credential) (r : Ride) (s : State) : Verdict × State :=
  let x := redemptionClaim c r s
  match admittedParty x.1 with
  | some party => (verdictOf x.1, handCredit r party (changeCounts r (countAdmitted .passMerge) x.2))
  | none => (verdictOf x.1, changeCounts r (countRefused .passMerge) x.2)

/-- R99 to R101: a tap under OWN or OWN_COPY that is not malformed. -/
def judgeTap (rd : Reader) (c : Credential) (headCount time : Nat) (s : State) : Verdict × State :=
  if !inDay s.day.phase then (refusal .refuseParkClosed, s)
  else if !validCredential c then (refusal .refuseBadCredential, changeCounts rd.ride (countRefused rd.role) s)
  else if rideState s rd.ride = .off then (refusal .refuseRideClosed, changeCounts rd.ride (countRefused rd.role) s)
  else match rd.role with
    | .standbyEntry => judgeStandby rd.ride headCount time s
    | .passMerge => judgeMerge c rd.ride s

/-- R111, R112: a tap under OBSERVE that is not malformed. -/
def observeTap (rd : Reader) (headCount time : Nat) (s : State) : State :=
  if !inDay s.day.phase || rideState s rd.ride == .off then s
  else match rd.role with
    | .standbyEntry => handStandby rd.ride headCount time s
    | .passMerge => handCredit rd.ride headCount s

/-- R98: a tap is taken. -/
def takeTap (e : FieldEntry) (reader : ReaderIx) (mode : ActedMode) (c : Credential) (headCount : Nat) (tag : Tag)
    (s : State) : State :=
  let rd := look s.readers reader
  if headCount = 0 ∨ 8 < headCount then raise .badMessage s
  else match mode with
    | .observe => observeTap rd headCount (entryTime e s) s
    | .own =>
      let v := judgeTap rd c headCount (entryTime e s) s
      sendVerdict .own (verdictFrame s e rd.ride v.1.result v.1.party v.1.minutes tag) v.2
    | .ownCopy =>
      let v := judgeTap rd c headCount (entryTime e s) s
      sendVerdict .ownCopy (verdictFrame s e rd.ride v.1.result v.1.party v.1.minutes tag) v.2

/-! ## The meanings -/

/-- TAP: the head of the field intake is a TAP, and the Admission Unit takes it (R97, R98). -/
def execTap (s : State) : Result :=
  event (fun s =>
    match deliver s with
    | some (e, s1) =>
      match e.body with
      | .tap reader mode c headCount tag => takeTap e reader mode c headCount tag s1
      | _ => s
    | none => s) s

/-- VERDICT_WRITE: room has appeared for the verdict or the copy that waits (R113). -/
def execVerdictWrite (s : State) : Result :=
  event (fun s =>
    if canResume .admission s.admission.outbox s then
      let x := resume .admission s.admission.outbox s
      { x.1 with admission := { outbox := x.2 } }
    else s) s

end Sys2Proof.Machine
end

