-- ==== Sys2Proof/Machine/Rides.lean ====
section
/-! DEFINITION. The Ride State Unit's events (chapter 2): dispatches, reports, credit additions and the expiry of the
dispatch-gap timer. -/

namespace Sys2Proof.Machine

/-- R31, R33: the accounts of an acted dispatch of `n` riders at a time: credit, count and the two hand-offs. -/
def accountDispatch (r : Ride) (n time : Nat) (s : State) : State :=
  let c := (look s.rides r).credit
  let passPart := min n c
  let s1 := { s with rides := upd s.rides r fun x => { x with credit := c - passPart } }
  let s2 := changeCounts r (fun k => { k with dispatchedRiders := countUp k.dispatchedRiders n }) s1
  { s2 with out := { s2.out with
      dispatches := s2.out.dispatches ++ [⟨r, n - passPart, time⟩]
      records := s2.out.records ++ [⟨r, time, n, passPart⟩] } }

/-- R32: the state effect of an acted dispatch. -/
def dispatchState (r : Ride) (s : State) : State :=
  match rideState s r with
  | .up => restartTimer s r
  | .suspect => enterState r .up s
  | .down => s
  | .closed => s
  | .off => s

/-- R20, R31: a DISPATCH is acted on in the day for an enabled ride that its controller lookup finds. -/
def takeDispatchMessage (e : FieldEntry) (n : Nat) (s : State) : State :=
  if !inDay s.day.phase then s
  else match rideByController s e.source with
    | none => s
    | some r => if rideState s r = .off then s else dispatchState r (accountDispatch r n (entryTime e s) s)

/-- R20, R22: a RIDE_STATUS. A reported state outside the three sets BAD_MESSAGE, whatever the phase and the source
(log 16). -/
def takeRideStatus (e : FieldEntry) (code : Nat) (s : State) : State :=
  match reportedState code with
  | none => raise .badMessage s
  | some st =>
    if !inDay s.day.phase then s
    else match rideByController s e.source with
      | none => s
      | some r => reportState r st s

/-- R30: an addition to a ride's pass credit; in NIGHT and CHECKING it is discarded. -/
def takeCredit (r : Ride) (n : Nat) (s : State) : State :=
  if inDay s.day.phase then
    { s with rides := upd s.rides r fun x => { x with credit := min Config.creditMax (x.credit + n) } }
  else s

/-- R26, R89: a second counted by a running timer. -/
def timerSecond (t : GapTimer) : GapTimer := if t.running then { t with elapsed := t.elapsed + 1 } else t

/-- R29: a running timer whose elapsed count has reached its limit expires. -/
def timerExpired (t : GapTimer) : Bool := t.running && decide (t.limit ≤ t.elapsed)

/-- R29: the expiry of a ride's timer: the ride enters SUSPECT. -/
def gapExpiry (r : Ride) (s : State) : State :=
  if timerExpired (look s.rides r).timer then enterState r .suspect s else s

/-! ## The meanings -/

/-- DISPATCH: the head of the field intake is a DISPATCH, and the Ride State Unit takes it (R97, R31). -/
def execDispatch (s : State) : Result :=
  event (fun s =>
    match deliver s with
    | some (e, s1) =>
      match e.body with
      | .dispatch n => takeDispatchMessage e n s1
      | _ => s
    | none => s) s

/-- RIDE_STATUS: the head of the field intake is a RIDE_STATUS, and the Ride State Unit takes it (R97, R22). -/
def execRideStatus (s : State) : Result :=
  event (fun s =>
    match deliver s with
    | some (e, s1) =>
      match e.body with
      | .rideStatus code => takeRideStatus e code s1
      | _ => s
    | none => s) s

/-- CREDIT_ADDITION: an outstanding addition of the ride is taken (R30, R102). Of several it is the oldest, an order
that the spec does not give (log 41). -/
def execCreditAddition (r : Ride) (s : State) : Result :=
  event (fun s =>
    match takeFirst (fun h => h.1 == r) s.out.credits with
    | none => s
    | some (h, rest) => takeCredit h.1 h.2 { s with out := { s.out with credits := rest } }) s

end Sys2Proof.Machine
end

