-- ==== Sys2Proof/Machine/Day.lean ====
section
/-! DEFINITION. The Day Controller (chapter 1): the opening check and its completion, the phase boundaries and the
day-close action. -/

namespace Sys2Proof.Machine

/-! ## Closing the day (R15) -/

/-- R15: the day-close action, with R132 at the Walker and R133 at the Standby Tally Unit. -/
def dayCloseAction (s : State) : State :=
  let s1 := emptyCalendar s
  let s2 := { s1 with guests := [], walker := abandonWalk s1.walker }
  closeEngine (restRides (emptyTallies 0 s2))

/-- R6, R14: the phase becomes NIGHT and the day-close action is taken. -/
def closeDay (s : State) : State := dayCloseAction (setPhase .night s)

/-- R6: the midnight wrap. -/
def wrapMidnight (s : State) : State := if inDay s.day.phase then closeDay s else s

/-! ## The phase boundaries (R13) -/

/-- R13: the clock reaches OPEN_MINUTE:00. -/
def openMinuteReached (s : State) : State :=
  if s.day.phase = .preopen ∧ clockAt s s.day.park.openMinute = true then setPhase .opened s else s

/-- R13: the clock reaches LAST_CALL_MINUTE:00. -/
def lastCallReached (s : State) : State :=
  if (s.day.phase = .preopen ∨ s.day.phase = .opened) ∧ clockAt s s.day.park.lastCallMinute = true then
    setPhase .lastCall s
  else s

/-- R13: PREOPEN is judged against a written OPEN_MINUTE. -/
def judgeOpenMinute (s : State) : State :=
  if s.day.phase = .preopen ∧ s.day.park.openMinute ≤ minuteNow s then setPhase .opened s else s

/-- R13: PREOPEN and OPEN are judged against a written LAST_CALL_MINUTE. -/
def judgeLastCallMinute (s : State) : State :=
  if (s.day.phase = .preopen ∨ s.day.phase = .opened) ∧ s.day.park.lastCallMinute ≤ minuteNow s then
    setPhase .lastCall s
  else s

/-! ## The opening check (R8) -/

/-- R8: a fault with its table and index. -/
structure CheckFault where
  code : CheckCode
  table : TableId
  index : Nat
deriving DecidableEq, Repr

/-- R36: the valid window lengths. -/
def validLength (n : Nat) : Bool := [5, 10, 15, 20, 30, 60].contains n

/-- R8: PROFILE_INVALID or PROFILE_OVERRUN. -/
def profileCode (p : Profile) : Option CheckCode :=
  if validLength p.windowLength && decide (1 ≤ p.windowCount) && decide (p.windowCount ≤ 96) then
    if 1440 < p.firstStart + p.windowCount * p.windowLength then some .profileOverrun else none
  else some .profileInvalid

/-- R8: DAY_TIMES. -/
def parkFaults (p : ParkSettings) : List CheckFault :=
  if p.openMinute < p.lastCallMinute then [] else [⟨.dayTimes, .park, 0⟩]

/-- R8: at least one enabled ride names the profile. -/
def profileNamed (s : State) (n : ProfileIx) : Bool :=
  (indices 48).any fun r => (rideEntry s r).enabled && (rideEntry s r).profile == n

/-- R8: the faults of a profile. -/
def profileFaults (s : State) (n : ProfileIx) : List CheckFault :=
  if profileNamed s n then
    match profileCode (look s.calendar.profiles n) with
    | some c => [⟨c, .profile, n.val⟩]
    | none => []
  else []

/-- An enabled ride of lower index that satisfies `p`. -/
def lowerRide (s : State) (r : Ride) (p : RideEntry → Bool) : Bool :=
  (indices 48).any fun q => decide (q.val < r.val) && (rideEntry s q).enabled && p (rideEntry s q)

/-- A fault if a condition holds. -/
def faultIf (b : Bool) (f : CheckFault) : List CheckFault := if b then [f] else []

/-- R8: the faults of a ride, in the order in which its codes are examined. -/
def rideFaults (s : State) (r : Ride) : List CheckFault :=
  let e := rideEntry s r
  if e.enabled then
    faultIf (profileCode (look s.calendar.profiles e.profile)).isSome ⟨.rideBadProfile, .ride, r.val⟩ ++
    faultIf (e.controllerAddress == 0 || lowerRide s r fun x => x.controllerAddress == e.controllerAddress)
      ⟨.controllerDup, .ride, r.val⟩ ++
    faultIf (lowerRide s r fun x => x.label == e.label) ⟨.labelDup, .ride, r.val⟩
  else []

/-- R8: NO_RIDE. -/
def noRideFaults (s : State) : List CheckFault :=
  faultIf (!(indices 48).any fun r => (rideEntry s r).enabled) ⟨.noRide, .ride, 0⟩

/-- R8: the faults of a reader. For a reader at fault under both codes the order is log 33. -/
def readerFaults (s : State) (i : ReaderIx) : List CheckFault :=
  let e := look s.readers i
  if e.used then
    faultIf ((indices 512).any fun j =>
      decide (j.val < i.val) && (look s.readers j).used && (look s.readers j).address == e.address)
      ⟨.readerDup, .reader, i.val⟩ ++
    faultIf (decide (e.claimMode ≠ .forward) && !(rideEntry s e.ride).enabled) ⟨.readerBadRide, .reader, i.val⟩
  else []

/-- R8: the fault of a board. -/
def boardFaults (s : State) (b : BoardIx) : List CheckFault :=
  faultIf (boardUsed (boardEntry s b) && !boardRangeOk (boardEntry s b)) ⟨.boardBadRange, .board, b.val⟩

/-- R8: every fault, in the order of the walk. -/
def checkFaults (s : State) : List CheckFault :=
  parkFaults s.day.park ++ (indices 8).flatMap (profileFaults s) ++ (indices 48).flatMap (rideFaults s) ++
    noRideFaults s ++ (indices 512).flatMap (readerFaults s) ++ (indices 64).flatMap (boardFaults s)

/-- R9: the record at completion. -/
def checkRecord : List CheckFault → CheckRecord
  | [] => { outcome := .passed }
  | f :: fs =>
    { outcome := .failed
      firstCode := some f.code
      firstTable := some f.table
      firstIndex := f.index
      failureCount := min 255 (fs.length + 1) }

/-! ## The completion (R10) -/

/-- Hand-offs left from an earlier day are dropped at the completion of a passed check; flag settings, posted values
and state changes to the Board Composer stay (log 4). -/
def freshHandoffs (o : Handoffs) : Handoffs := { flags := o.flags, posted := o.posted, boardStates := o.boardStates }

/-- R10: the phase a passed check chooses. -/
def openingPhase (p : ParkSettings) (minute : Nat) : Phase :=
  if minute < p.openMinute then .preopen else if minute < p.lastCallMinute then .opened else .lastCall

/-- R10, R19, R21, R133, R149: the day as a passed check sets it up, before the phase changes. -/
def setUpDay (s : State) : State :=
  let now := minuteNow s
  let s1 := { s with
    rideTable := tmap bringIntoEffect s.rideTable
    monitors := freshMonitors now
    out := freshHandoffs s.out }
  emptyTallies now (restRides (buildCalendar s1))

/-- R10: the opening check completes. -/
def completeCheck (s : State) : State :=
  let fs := checkFaults s
  let s1 := raise .checkDone { s with day := { s.day with check := checkRecord fs } }
  if fs.isEmpty then
    let s2 := setUpDay s1
    setPhase (openingPhase s2.day.park (minuteNow s2)) s2
  else setPhase .night s1

/-! ## The meaning -/

/-- CHECK_COMPLETE: while an opening check is in progress (R10). -/
def execCheckComplete (s : State) : Result :=
  event (fun s => if s.day.phase = .checking then completeCheck s else s) s

end Sys2Proof.Machine
end

