-- ==== Sys2Proof/Machine/Clock.lean ====
section
/-! DEFINITION. The clock (R2 to R6) and the boundaries that its seconds bring. An advance of the clock makes the midnight
wrap where it passes 23:59:59, and notes the boundaries of the second it reaches in `due`; a command takes each of them,
and those not yet taken are taken before the clock leaves the second (R4, R49, log 5). -/

namespace Sys2Proof.Machine

/-! ## The boundaries of a second -/

/-- The members of a list whose test holds, as boundaries. -/
def boundaryIf (b : Bool) (x : Boundary) : List Boundary := if b then [x] else []

/-- R37: the boundaries of a window that fall on the second `t`. -/
def windowBoundaries (p : Profile) (r : Ride) (t k : Nat) (w : Window) : List Boundary :=
  boundaryIf (decide (p.early ≤ w.start) && t == 60 * (w.start - p.early)) (.earlyRedemption r k) ++
  boundaryIf (t == 60 * w.stop) (.windowEnd r k) ++
  boundaryIf (t == 60 * (w.stop + p.late)) (.closing r k)

/-- R37: the boundaries of a ride's windows that fall on the second `t`. -/
def rideBoundaries (s : State) (t : Nat) (r : Ride) : List Boundary :=
  (look s.calendar.windows r).zipIdx.flatMap fun x => windowBoundaries (rideProfile s r) r t x.2 x.1

/-- R179, R180: the boundaries of a board whose counts have just advanced. -/
def boardBoundaries (s : State) (b : BoardIx) : List Boundary :=
  let x := boardOf s b
  let e := boardEntry s b
  boundaryIf (x.pending && x.spacing == some Config.boardSpacing) (.spacingEnd b) ++
  boundaryIf (boardUsed e && decide (e.refreshPeriod ≤ x.refresh)) (.refresh b)

/-- R2: every boundary at the second `t`, with the interval timers advanced, in the order in which those not taken by a
command are taken. -/
def boundariesAt (t : Nat) (s : State) : List Boundary :=
  boundaryIf (t == 60 * s.day.park.openMinute) .openMinute ++
  boundaryIf (t == 60 * s.day.park.lastCallMinute) .lastCall ++
  (if t % 60 = 0 then (indices 48).flatMap (rideBoundaries s t) else []) ++
  boundaryIf (t % 60 == 0) .historyRotation ++
  boundaryIf (t % 30 == 0) .postingTick ++
  (indices 48).flatMap (fun r => boundaryIf (timerExpired (look s.rides r).timer) (.gapExpiry r)) ++
  boundaryIf (s.engine.heldList.any HeldEntry.expiring) .holdExpiry ++
  (indices 64).flatMap (boardBoundaries s)

/-! ## Taking a boundary -/

/-- What a boundary does, by the rule of its owner. -/
def runBoundary (b : Boundary) (s : State) : State :=
  match b with
  | .openMinute => openMinuteReached s
  | .lastCall => lastCallReached s
  | .earlyRedemption r k => earlyRedemption r k s
  | .windowEnd r k => windowEnd r k s
  | .closing r k => closingTime r k s
  | .historyRotation => rotateHistories s
  | .postingTick => postingTick s
  | .gapExpiry r => gapExpiry r s
  | .holdExpiry => expireAllHeld Config.heldPlaces s
  | .spacingEnd x => spacingEnd x s
  | .refresh x => refreshBoard x s

/-- A boundary is taken if it is due. -/
def takeDue (b : Boundary) (s : State) : State :=
  if s.day.due.contains b then runBoundary b { s with day := { s.day with due := s.day.due.erase b } } else s

/-- Boundaries are taken one after the other, each if it is due. -/
def takeDues (bs : List Boundary) (s : State) : State := bs.foldl (fun s b => takeDue b s) s

/-- Every boundary of the present second is taken: those of `order` first, the rest in the order of the list. -/
def settle (order : List Boundary) (s : State) : State :=
  let s1 := takeDues order s
  takeDues s1.day.due s1

/-! ## Movement of the clock -/

/-- The second after `t`. -/
def nextSecond (t : Nat) : Nat := (t + 1) % Config.daySeconds

/-- R26, R89, R177: the interval timers count a second. -/
def countTimers (s : State) : State :=
  { s with
    rides := tmap (fun x => { x with timer := timerSecond x.timer }) s.rides
    engine := { s.engine with heldList := s.engine.heldList.map (holdSecond s.day.park.holdLimit) }
    boards := tmap countSecond s.boards }

/-- R2, R4, R6: the set clock moves to the next second `t`, from 23:59:59 with the midnight wrap; the boundaries of the
second are those of the state that the wrap leaves. -/
def reachSecond (t : Nat) (s : State) : State :=
  let s1 := countTimers { s with day := { s.day with clock := some t } }
  let s2 := if t = 0 then wrapMidnight s1 else s1
  { s2 with day := { s2.day with due := boundariesAt t s2 } }

/-- R2: a set clock moves to the next second. -/
def tick (s : State) : State :=
  match s.day.clock with
  | none => s
  | some t => reachSecond (nextSecond t) s

/-- R2: a second passes. -/
def advanceClock (s : State) : State := tick (settle [] s)

/-- R4: the clock passes `n` seconds, every boundary of each taken as it is passed. -/
def passSeconds : Nat → List (List Boundary) → State → State
  | 0, _, s => s
  | n + 1, orders, s => passSeconds n orders.tail (settle (orders.headD []) (tick s))

/-- R5: the clock is set back by `n` seconds, across midnight if need be. -/
def setBack (n : Nat) (s : State) : State :=
  { s with day := { s.day with clock := s.day.clock.map fun t => (t + Config.daySeconds - n) % Config.daySeconds } }

/-- R4, R5: a trim of the clock by a number of seconds from −59 to 59. -/
def trimClock (seconds : Int) (orders : List (List Boundary)) (s : State) : State :=
  if 0 ≤ seconds then passSeconds seconds.toNat orders (settle [] s) else setBack (-seconds).toNat (settle [] s)

/-- R3: the clock takes a time; nothing of the present second is left over. -/
def setClock (t : Nat) (s : State) : State :=
  let s1 := settle [] s
  { s1 with day := { s1.day with clock := some t } }

/-! ## The meanings -/

/-- CLOCK_ADVANCE (R2): a clock that is UNSET does not run. -/
def execClockAdvance (s : State) : Result :=
  event (fun s => if s.day.clock.isSome then advanceClock s else s) s

/-- OPEN_MINUTE_BOUNDARY (R13). -/
def execOpenMinuteBoundary (s : State) : Result := event (takeDue .openMinute) s

/-- LAST_CALL_BOUNDARY (R13). -/
def execLastCallBoundary (s : State) : Result := event (takeDue .lastCall) s

/-- MIDNIGHT_WRAP (R6): the clock passes from 23:59:59 to 00:00:00; at any other second there is no wrap (log 1). -/
def execMidnightWrap (s : State) : Result :=
  event (fun s => if s.day.clock = some (Config.daySeconds - 1) then advanceClock s else s) s

/-- EARLY_REDEMPTION_TIME (R45). -/
def execEarlyRedemptionTime (r : Ride) (k : Nat) (s : State) : Result := event (takeDue (.earlyRedemption r k)) s

/-- WINDOW_END (R42). -/
def execWindowEnd (r : Ride) (k : Nat) (s : State) : Result := event (takeDue (.windowEnd r k)) s

/-- CLOSING_TIME (R46). -/
def execClosingTime (r : Ride) (k : Nat) (s : State) : Result := event (takeDue (.closing r k)) s

/-- POSTING_TICK (R141). -/
def execPostingTick (s : State) : Result := event (takeDue .postingTick) s

/-- DISPATCH_HISTORY_ROTATION (R150). -/
def execDispatchHistoryRotation (s : State) : Result := event (takeDue .historyRotation) s

/-- GAP_TIMER_EXPIRY (R29). -/
def execGapTimerExpiry (r : Ride) (s : State) : Result := event (takeDue (.gapExpiry r)) s

/-- HOLD_EXPIRY (R89): the first entry whose expiry is due, unless the Pass Engine waits (R80). -/
def execHoldExpiry (s : State) : Result :=
  event (fun s => if engineWaits s then s else expireHeld s) s

/-- BOARD_SPACING_END (R179). -/
def execBoardSpacingEnd (b : BoardIx) (s : State) : Result := event (takeDue (.spacingEnd b)) s

/-- BOARD_REFRESH (R180). -/
def execBoardRefresh (b : BoardIx) (s : State) : Result := event (takeDue (.refresh b)) s

end Sys2Proof.Machine
end

