-- ==== Sys2Proof/Machine/Tables.lean ====
section
/-! DEFINITION. The loaded tables as TABLE_READ and TABLE_WRITE see them (R16 to R19, R36, R165, R174, R186, R187,
R202): field numbers, classes, ranges, values, and what a taken write does. -/

namespace Sys2Proof.Machine

/-! ## Tables, entries and fields -/

/-- R202: the table codes. -/
def tableOf : Nat → Option TableId
  | 1 => some .park
  | 2 => some .profile
  | 3 => some .ride
  | 4 => some .reader
  | 5 => some .board
  | _ => none

/-- An entry of a loaded table. -/
inductive Entry where
  | park
  | profile (i : ProfileIx)
  | ride (r : Ride)
  | reader (i : ReaderIx)
  | board (b : BoardIx)
deriving DecidableEq, Repr

/-- Section 12.2: the entry of a table at an index, `none` beyond the table's range. -/
def entryAt (t : TableId) (index : Nat) : Option Entry :=
  match t with
  | .park => if index = 0 then some .park else none
  | .profile => (index? 8 index).map .profile
  | .ride => (index? 48 index).map .ride
  | .reader => (index? 512 index).map .reader
  | .board => (index? 64 index).map .board

/-- R202: the number of a table's last field. -/
def lastField : TableId → Nat
  | .park => 8
  | .profile => 6
  | .ride => 17
  | .reader => 5
  | .board => 5

/-- R16: the field is STRUCTURAL; any other field is TUNING. -/
def structural (t : TableId) (n : Nat) : Bool :=
  match t with
  | .park => n == 1
  | .profile => true
  | .ride => decide (n ≤ 4)
  | .reader => n != 4
  | .board => false

/-- R18: the written value of POSTING_CURVE. -/
def curveOf : Nat → Option PostingCurve
  | 1 => some .exact
  | 2 => some .fives
  | 4 => some .padded
  | 8 => some .bands
  | _ => none

def curveValue : PostingCurve → Nat
  | .exact => 1
  | .fives => 2
  | .padded => 4
  | .bands => 8

/-! ## Accepted values (R186, step 6) -/

/-- R17. -/
def parkAccepts (n v : Nat) : Bool :=
  match n with
  | 1 => decide (1 ≤ v ∧ v ≤ 4)
  | 2 => decide (v ≤ 1439)
  | 3 => decide (v ≤ 1439)
  | 4 => decide (v ≤ 1)
  | 5 => decide (1 ≤ v ∧ v ≤ 15)
  | 6 => decide (2 ≤ v ∧ v ≤ 30)
  | _ => true

/-- R36. -/
def profileAccepts (n v : Nat) : Bool :=
  match n with
  | 1 => decide (v ≤ 60)
  | 2 => decide (v ≤ 1439)
  | 3 => decide (v ≤ 255)
  | 4 => decide (v ≤ 120)
  | 5 => decide (v ≤ 30)
  | _ => decide (v ≤ 60)

/-- Section 2.1; a POSTING_CURVE of any value is no case of step 6 (R18). -/
def rideAccepts (n v : Nat) : Bool :=
  match n with
  | 2 => decide (v ≤ 1)
  | 4 => decide (v ≤ 7)
  | 5 => decide (v ≤ 4000)
  | 6 => decide (v ≤ 90)
  | 7 => decide (v ≤ 50)
  | 8 => decide (v ≤ 25)
  | 9 => decide (v ≤ 20)
  | 10 => decide (10 ≤ v ∧ v ≤ 100)
  | 11 => decide (v ≤ 200)
  | 12 => decide (v ≤ 100)
  | 13 => decide (v ≤ 100)
  | 14 => decide (v ≤ 1)
  | 15 => decide (v = 0 ∨ (30 ≤ v ∧ v ≤ 1800))
  | 17 => decide (v ≤ 1)
  | _ => true

/-- R165. -/
def readerAccepts (n v : Nat) : Bool :=
  match n with
  | 2 => decide (v ≤ 47)
  | 3 => decide (v ≤ 1)
  | 4 => decide (v ≤ 3)
  | 5 => decide (v ≤ 1)
  | _ => true

/-- R174. -/
def boardAccepts (n v : Nat) : Bool :=
  match n with
  | 2 => decide (v ≤ 47)
  | 3 => decide (v ≤ 15)
  | 4 => decide (5 ≤ v ∧ v ≤ 120)
  | 5 => decide (v = 0 ∨ (5 ≤ v ∧ v ≤ 240))
  | _ => true

def accepts : TableId → Nat → Nat → Bool
  | .park => parkAccepts
  | .profile => profileAccepts
  | .ride => rideAccepts
  | .reader => readerAccepts
  | .board => boardAccepts

/-! ## Reading fields as last written (R187, R202) -/

def yesNo (b : Bool) : Nat := if b then 1 else 0

def readPark (p : ParkSettings) (n : Nat) : Nat :=
  match n with
  | 1 => p.passesPerGuest
  | 2 => p.openMinute
  | 3 => p.lastCallMinute
  | 4 => match p.arbiterMode with
    | .fixed => 0
    | .share => 1
  | 5 => p.runLimit
  | 6 => p.holdLimit
  | 7 => p.gatewayAddress.toNat
  | _ => p.noticeTarget.toNat

def readProfile (p : Profile) (n : Nat) : Nat :=
  match n with
  | 1 => p.windowLength
  | 2 => p.firstStart
  | 3 => p.windowCount
  | 4 => p.lead
  | 5 => p.early
  | _ => p.late

def readRide (e : RideEntry) (n : Nat) : Nat :=
  match n with
  | 1 => e.label.toNat
  | 2 => yesNo e.enabled
  | 3 => e.controllerAddress.toNat
  | 4 => e.profile.val
  | 5 => e.written.hourlyCapacity
  | 6 => e.written.passShare
  | 7 => e.written.reserveShare
  | 8 => e.written.overbookCap
  | 9 => e.written.throttleStep
  | 10 => e.written.derateFloor
  | 11 => e.written.throughputThreshold
  | 12 => e.written.noshowThreshold
  | 13 => e.written.mergeloadThreshold
  | 14 => match e.displacePolicy with
    | .shift => 0
    | .flex => 1
  | 15 => e.gapLimit
  | 16 => curveValue e.postingCurve
  | _ => yesNo e.controllerRelay

def readReader (e : Reader) (n : Nat) : Nat :=
  match n with
  | 1 => e.address.toNat
  | 2 => e.ride.val
  | 3 => match e.role with
    | .standbyEntry => 0
    | .passMerge => 1
  | 4 => match e.claimMode with
    | .forward => 0
    | .observe => 1
    | .own => 2
    | .ownCopy => 3
  | _ => yesNo e.used

def readBoard (e : BoardEntry) (n : Nat) : Nat :=
  match n with
  | 1 => e.address.toNat
  | 2 => e.firstRide
  | 3 => e.rideCount
  | 4 => e.refreshPeriod
  | _ => e.alertMinutes

/-- The value of a field of an entry, as last written. -/
def readField (s : State) (e : Entry) (n : Nat) : Nat :=
  match e with
  | .park => readPark s.day.park n
  | .profile i => readProfile (look s.calendar.profiles i) n
  | .ride r => readRide (rideEntry s r) n
  | .reader i => readReader (look s.readers i) n
  | .board b => readBoard (boardEntry s b) n

/-! ## Writing fields -/

def writePark (p : ParkSettings) (n v : Nat) : ParkSettings :=
  match n with
  | 1 => { p with passesPerGuest := v }
  | 2 => { p with openMinute := v }
  | 3 => { p with lastCallMinute := v }
  | 4 => { p with arbiterMode := if v = 0 then .fixed else .share }
  | 5 => { p with runLimit := v }
  | 6 => { p with holdLimit := v }
  | 7 => { p with gatewayAddress := BitVec.ofNat 16 v }
  | 8 => { p with noticeTarget := BitVec.ofNat 16 v }
  | _ => p

def writeProfile (p : Profile) (n v : Nat) : Profile :=
  match n with
  | 1 => { p with windowLength := v }
  | 2 => { p with firstStart := v }
  | 3 => { p with windowCount := v }
  | 4 => { p with lead := v }
  | 5 => { p with early := v }
  | 6 => { p with late := v }
  | _ => p

/-- The capacity fields by their numbers. -/
def writeCapacity (c : CapacityFields) (n v : Nat) : CapacityFields :=
  match n with
  | 5 => { c with hourlyCapacity := v }
  | 6 => { c with passShare := v }
  | 7 => { c with reserveShare := v }
  | 8 => { c with overbookCap := v }
  | 9 => { c with throttleStep := v }
  | 10 => { c with derateFloor := v }
  | 11 => { c with throughputThreshold := v }
  | 12 => { c with noshowThreshold := v }
  | 13 => { c with mergeloadThreshold := v }
  | _ => c

/-- R18, R19: a field of a ride entry; in NIGHT a capacity field's value comes into effect with the write. -/
def writeRide (night : Bool) (e : RideEntry) (n v : Nat) : RideEntry :=
  match n with
  | 1 => { e with label := BitVec.ofNat 16 v }
  | 2 => { e with enabled := decide (v = 1) }
  | 3 => { e with controllerAddress := BitVec.ofNat 16 v }
  | 4 => { e with profile := Fin.ofNat 8 v }
  | 14 => { e with displacePolicy := if v = 0 then .shift else .flex }
  | 15 => { e with gapLimit := v }
  | 16 => { e with postingCurve := (curveOf v).getD e.postingCurve }
  | 17 => { e with controllerRelay := decide (v = 1) }
  | n =>
    { e with
      written := writeCapacity e.written n v
      inEffect := if night then writeCapacity e.inEffect n v else e.inEffect }

def writeReader (e : Reader) (n v : Nat) : Reader :=
  match n with
  | 1 => { e with address := BitVec.ofNat 16 v }
  | 2 => { e with ride := Fin.ofNat 48 v }
  | 3 => { e with role := if v = 0 then .standbyEntry else .passMerge }
  | 4 => { e with claimMode := match v with
      | 0 => .forward
      | 1 => .observe
      | 2 => .own
      | _ => .ownCopy }
  | 5 => { e with used := decide (v = 1) }
  | _ => e

def writeBoardEntry (e : BoardEntry) (n v : Nat) : BoardEntry :=
  match n with
  | 1 => { e with address := BitVec.ofNat 16 v }
  | 2 => { e with firstRide := v }
  | 3 => { e with rideCount := v }
  | 4 => { e with refreshPeriod := v }
  | 5 => { e with alertMinutes := v }
  | _ => e

/-- All the items of a write. -/
def writeItems {α : Type} (w : α → Nat → Nat → α) (items : List (Nat × Nat)) (e : α) : α :=
  items.foldl (fun e x => w e x.1 x.2) e

/-! ## Judging (R186) -/

/-- R186, steps 1 to 3, which TABLE_READ shares (R187): the table and the entry, or the reply. -/
def judgeNames (table index : Nat) (fields : List Nat) : Except MgmtResult (TableId × Entry) :=
  match tableOf table with
  | none => .error .badValue
  | some t =>
    match entryAt t index with
    | none => .error .badIndex
    | some e =>
      if (fields.all fun n => decide (1 ≤ n) && decide (n ≤ lastField t)) && noRepeats fields then .ok (t, e)
      else .error .badValue

/-- R186, step 7: what the write would leave is not allowed outside NIGHT (R17, R174). -/
def leavesUnsound (s : State) (e : Entry) (items : List (Nat × Nat)) : Bool :=
  match e with
  | .park =>
    let p := writeItems writePark items s.day.park
    !decide (p.openMinute < p.lastCallMinute)
  | .board b =>
    let x := writeItems writeBoardEntry items (boardEntry s b)
    boardUsed x && !boardRangeOk x
  | .profile _ => false
  | .ride _ => false
  | .reader _ => false

/-- R186: the judgement of a TABLE_WRITE, step by step. -/
def judgeWrite (s : State) (table index : Nat) (items : List (Nat × Nat)) : Except MgmtResult Entry :=
  match judgeNames table index (items.map Prod.fst) with
  | .error x => .error x
  | .ok (t, e) =>
    if s.day.phase = .checking then .error .busy
    else if (inDay s.day.phase && items.any fun x => structural t x.1) = true then .error .locked
    else if (items.all fun x => accepts t x.1 x.2) = false then .error .badValue
    else if (inDay s.day.phase && leavesUnsound s e items) = true then .error .badValue
    else .ok e

/-- R18, R185: the write carries a POSTING_CURVE value that is ignored. -/
def ignoresCurve (e : Entry) (items : List (Nat × Nat)) : Bool :=
  match e with
  | .ride _ => items.any fun x => x.1 == 16 && (curveOf x.2).isNone
  | .park => false
  | .profile _ => false
  | .reader _ => false
  | .board _ => false

/-! ## Taking a write (R187) -/

/-- R13: a write of the park settings; the phase is judged outside NIGHT where one of the two minutes changed
(log 24). -/
def takeParkWrite (items : List (Nat × Nat)) (s : State) : State :=
  let old := s.day.park
  let p := writeItems writePark items old
  let s1 := { s with day := { s.day with park := p } }
  if inDay s.day.phase && decide (p.openMinute ≠ old.openMinute ∨ p.lastCallMinute ≠ old.lastCallMinute) then
    judgeLastCallMinute (judgeOpenMinute s1)
  else s1

/-- R21: an ENABLED changed in NIGHT moves the ride between CLOSED and OFF, at the write (log 42). -/
def moveRide (r : Ride) (old new : RideEntry) (s : State) : State :=
  if old.enabled = new.enabled then s
  else { s with rides := upd s.rides r fun x => { x with state := restingState new } }

/-- R19, R21, R179: a write of a ride entry. A write of RIDE_LABEL is a change for the boards, whatever value it carries. -/
def takeRideWrite (r : Ride) (items : List (Nat × Nat)) (order : List BoardIx) (s : State) : State :=
  let old := rideEntry s r
  let e := writeItems (writeRide (decide (s.day.phase = .night))) items old
  let s1 := moveRide r old e { s with rideTable := put s.rideTable r e }
  if items.any fun x => x.1 == 1 then boardsChanged order (fun b => inRange (boardEntry s1 b) r) s1 else s1

/-- R182: a write of a board entry. -/
def takeBoardWrite (b : BoardIx) (items : List (Nat × Nat)) (s : State) : State :=
  let old := boardEntry s b
  boardWritten b old { s with boardTable := put s.boardTable b (writeItems writeBoardEntry items old) }

/-- R187: all the fields of a write are written in one event, and the write acts. A STRUCTURAL field written in NIGHT is
read at once by the blocks that read the tables in NIGHT (log 42). -/
def takeWrite (e : Entry) (items : List (Nat × Nat)) (order : List BoardIx) (s : State) : State :=
  match e with
  | .park => takeParkWrite items s
  | .profile i =>
    { s with calendar := { s.calendar with
        profiles := put s.calendar.profiles i (writeItems writeProfile items (look s.calendar.profiles i)) } }
  | .ride r => takeRideWrite r items order s
  | .reader i => { s with readers := put s.readers i (writeItems writeReader items (look s.readers i)) }
  | .board b => takeBoardWrite b items s

end Sys2Proof.Machine
end

