-- ==== Sys2Proof/Machine/Reads.lean ====
section
/-! DEFINITION. The reply fields of the read commands (R60, R74, R187 to R189, R203), as bytes, with every item in the
width and the order of R203. -/

namespace Sys2Proof.Machine

/-! ## Codes of read replies (R203) -/

/-- As in PHASE_SET: 1 to 5 in the order of section 1.1. -/
def phaseCode : Phase → Nat
  | .night => 1
  | .checking => 2
  | .preopen => 3
  | .opened => 4
  | .lastCall => 5

def outcomeCode : CheckOutcome → Nat
  | .none => 1
  | .passed => 2
  | .failed => 3
  | .aborted => 4

/-- From 1 in the order of the table of R8. -/
def checkCodeNumber : CheckCode → Nat
  | .dayTimes => 1
  | .profileInvalid => 2
  | .profileOverrun => 3
  | .rideBadProfile => 4
  | .controllerDup => 5
  | .labelDup => 6
  | .noRide => 7
  | .readerDup => 8
  | .readerBadRide => 9
  | .boardBadRange => 10

/-- R202. -/
def tableCode : TableId → Nat
  | .park => 1
  | .profile => 2
  | .ride => 3
  | .reader => 4
  | .board => 5

def originCode : Origin → Nat
  | .kiosk => 1
  | .remote => 2

/-- 1 NONE, 2 KIOSK, 3 REMOTE. -/
def lastQueueCode : Option Origin → Nat
  | none => 1
  | some .kiosk => 2
  | some .remote => 3

def workKindCode : WorkKind → Nat
  | .displace => 1
  | .expire => 2

def rideStateCode : RideState → Nat
  | .off => 1
  | .closed => 2
  | .up => 3
  | .suspect => 4
  | .down => 5

/-- The window states of R199. -/
def windowStateCode : WindowState → Nat
  | .future => 1
  | .redeemable => 2
  | .past => 3
  | .lost => 4

def boardModeCode : BoardModeKind → Nat
  | .live => 1
  | .hold => 2
  | .blank => 3

/-! ## STATUS_READ (R188) -/

/-- The clock as hours, minutes and seconds, all ones while it is UNSET. -/
def clockBytes (clock : Option Nat) : List Byte :=
  clock.elim (encNone 3) fun t => enc1 (t / 3600) ++ enc1 (t / 60 % 60) ++ enc1 (t % 60)

def checkBytes (c : CheckRecord) : List Byte :=
  enc1 (outcomeCode c.outcome) ++ encOpt1 (c.firstCode.map checkCodeNumber) ++ encOpt1 (c.firstTable.map tableCode) ++
    enc2 c.firstIndex ++ enc1 c.failureCount

/-- The holders left in the window of an item. -/
def holdersLeft (s : State) (i : WorkItem) : Nat := (windowOf s i.ride i.window).elim 0 fun w => w.holders.length

/-- The item in progress with its window's holders left, all ones where there is none. -/
def itemBytes (s : State) : List Byte :=
  s.walker.item.elim (encNone 5) fun i =>
    enc1 i.ride.val ++ enc1 i.window ++ enc1 (workKindCode i.kind) ++ enc2 (holdersLeft s i)

/-- The displacing rides as a number with ride `i` at bit `i`. -/
def displacingMask (s : State) : Nat :=
  ((indices 48).map fun r => if isDisplacing s r then 2 ^ r.val else 0).sum

def portBytes (ps : PortState) : List Byte :=
  enc1 ps.receiveBuffer.length ++ enc1 ps.relayQueue.length ++ enc1 ps.partQueue.length

/-- STATUS_READ, PART. -/
def partStatus (s : State) : List Byte :=
  enc1 (phaseCode s.day.phase) ++ clockBytes s.day.clock ++ encWord s.nodeAddress ++ checkBytes s.day.check ++
    enc3 s.guests.length ++ enc1 s.engine.kiosk.length ++ enc1 s.engine.remote.length ++
    enc1 s.engine.heldList.length ++ enc1 (lastQueueCode s.engine.lastQueue) ++ enc1 s.engine.run ++
    enc2 s.walker.workList.length ++ itemBytes s ++
    enc3 (displacingMask s / 16777216) ++ enc3 (displacingMask s) ++
    portBytes s.fieldPort ++ portBytes s.trunkPort ++ enc2 s.fieldIntake.length ++ enc1 s.mgmtIntake.length ++
    encFlags s.management.flags ++ encBool s.management.hold ++ encFlags s.day.enableSet ++
    encWord s.day.park.noticeTarget

def postedBytes (v : Posted) : List Byte := enc1 (postedCode v) ++ enc1 (postedMinutes v)

def attributeBytes (a : AttributeRecord) (threshold : Nat) : List Byte :=
  encOpt1 a.current ++ encOpt1 a.worst ++ enc1 threshold ++ encBool a.exceeded ++ enc2 a.exceedCount

def tallyBytes (y : Tally) : List Byte :=
  enc2 y.marks.length ++ enc2 (queueOf y.marks) ++ encBool y.saturated ++ enc3 (rateOf y.buckets) ++
    encOpt2 (y.lastObserved.map ObservedWait.minutes) ++ encOpt3 (y.lastObserved.map ObservedWait.observedAt) ++
    enc2 y.estimate ++ postedBytes y.posted

/-- R160. -/
def monitorBytes (m : Monitor) (f : CapacityFields) : List Byte :=
  attributeBytes m.throughput f.throughputThreshold ++ attributeBytes m.noShow f.noshowThreshold ++
    attributeBytes m.mergeLoad f.mergeloadThreshold ++ enc1 m.derate ++ enc1 m.overbook ++ enc1 m.throttle ++
    enc1 m.evaluations ++ encOpt1 (m.lastEvaluation.map Prod.fst) ++ encOpt2 (m.lastEvaluation.map Prod.snd)

/-- STATUS_READ, RIDE. -/
def rideStatus (s : State) (r : Ride) : List Byte :=
  enc1 (rideStateCode (rideState s r)) ++ enc2 (look s.rides r).credit ++ tallyBytes (look s.tallies r) ++
    monitorBytes (look s.monitors r) (rideEntry s r).inEffect ++ postedBytes (look s.heldValues r)

/-- STATUS_READ, BOARD. -/
def boardStatus (s : State) (b : BoardIx) : List Byte :=
  enc1 (boardModeCode (boardOf s b).mode) ++ encBool (boardOf s b).pending ++ encBool (boardOf s b).deferred

/-! ## The other reads -/

/-- TABLE_READ (R187, R202): a list with no fields reads every field. -/
def fieldBytes (s : State) (t : TableId) (e : Entry) (fields : List Nat) : List Byte :=
  let ns := if fields.isEmpty then (List.range (lastField t)).map (· + 1) else fields
  ns.flatMap fun n => enc1 n ++ enc2 (readField s e n)

/-- COUNTS_READ (R189): a ride's twelve counts and three exceed counts. -/
def countBytes (s : State) (r : Ride) : List Byte :=
  let c := look s.management.counts r
  let m := look s.monitors r
  enc1 r.val ++ enc3 c.standbyAdmitted ++ enc3 c.standbyRefused ++ enc3 c.mergeAdmitted ++ enc3 c.mergeRefused ++
    enc3 c.granted ++ enc3 c.refused ++ enc3 c.cancelled ++ enc3 c.shifted ++ enc3 c.flexed ++ enc3 c.expired ++
    enc3 c.dispatchedRiders ++ enc3 c.unseenBoarders ++
    enc2 m.throughput.exceedCount ++ enc2 m.noShow.exceedCount ++ enc2 m.mergeLoad.exceedCount

/-- COUNTS_READ: the rides from the first index onward. -/
def countsBytes (s : State) (first count : Nat) : List Byte :=
  let rs := ((indices 48).drop first).take count
  enc1 rs.length ++ rs.flatMap (countBytes s)

/-- CALENDAR_READ (R60): one window. -/
def windowBytes (k : Nat) (w : Window) : List Byte :=
  enc1 k ++ enc2 w.start ++ enc2 w.stop ++ enc1 (windowStateCode w.state) ++ encBool w.ended ++ enc2 w.capacity ++
    enc2 w.limit ++ enc2 w.booked ++ enc2 w.held ++ enc2 w.redeemed ++ enc2 w.expired ++ enc2 w.movedOut ++
    enc2 w.holders.length

/-- CALENDAR_READ: the windows from the first index onward, then the flex list. -/
def calendarBytes (s : State) (r : Ride) (first count : Nat) : List Byte :=
  let ws := ((look s.calendar.windows r).zipIdx.drop first).take count
  let fs := look s.calendar.flex r
  enc1 ws.length ++ (ws.flatMap fun x => windowBytes x.2 x.1) ++ enc3 fs.length ++ enc3 (fs.map Holder.party).sum

/-- GUEST_READ (R74): one pass. -/
def passBytes (s : State) (p : Pass) : List Byte :=
  let span := (passSpan s p).getD (0, 0)
  enc1 p.ride.val ++ enc1 p.party ++
    (match p.place with
      | .window k => enc1 k
      | .flex => encNone 1) ++
    enc1 p.moves ++ enc1 (originCode p.origin) ++ enc2 p.grantMinute ++ encWord (rideEntry s p.ride).label ++
    enc2 span.1 ++ enc2 span.2

/-- GUEST_READ (R74): a record and the record count. -/
def guestBytes (s : State) (g : Guest) : List Byte :=
  encCred g.credential ++ enc1 g.passes.length ++ g.passes.flatMap (passBytes s) ++ enc3 s.guests.length

/-- PASS_REVOKE (R73). -/
def removedBytes (x : Removed) : List Byte := enc1 x.party ++ encBool x.start.isNone ++ enc2 (x.start.getD 0)

end Sys2Proof.Machine
end

