-- ==== Sys2Proof/Machine/Management.lean ====
section
/-! DEFINITION. The Management Unit (chapter 12): the serving of commands, their replies, the notice flags and the
NOTICE. A management command is served from the head of the management intake; a command of the queue that names
another kind than the head finds nothing to take (log 6). -/

namespace Sys2Proof.Machine

/-! ## Notices (R190, R193) -/

/-- R190: a NOTICE is to be made: the hold is off, a target is set, and an enabled flag is set. -/
def noticeDue (s : State) : Bool :=
  !s.management.hold && s.day.park.noticeTarget != 0 && s.management.flags &&& s.day.enableSet != 0

/-- R190: the NOTICE, listing every flag that is set. -/
def noticeFrame (s : State) : Port × PartFrame := (.trunk, ⟨s.day.park.noticeTarget, .notice s.management.flags⟩)

/-- The Management Unit writes frames in order, or waits with them (R184, R193). -/
def mgmtWrite (fs : List (Port × PartFrame)) (s : State) : State :=
  let x := send .management s.management.outbox fs s
  { x.1 with management := { x.1.management with outbox := x.2 } }

/-- The end of every event of the Management Unit: R190 is judged, and the event's frames are written with the
NOTICE, if one is made, behind them. -/
def mgmtFinish (fs : List (Port × PartFrame)) (s : State) : State :=
  if noticeDue s then
    mgmtWrite (fs ++ [noticeFrame s]) { s with management := { s.management with hold := true } }
  else mgmtWrite fs s

/-! ## Serving (R184, R185) -/

/-- R184, R194: the Management Unit waits with no frame and for no soft reset. -/
def mgmtReady (s : State) : Bool := s.management.outbox.isEmpty && decide (s.management.softReset = .none)

/-- R184: the command at the head of the management intake, if one can be served, and the state without it. -/
def nextCommand (s : State) : Option (MgmtEntry × State) :=
  if mgmtReady s then
    match s.mgmtIntake with
    | [] => none
    | e :: rest => some (e, { s with mgmtIntake := rest })
  else none

/-- R185: the result of a command, with its reply fields. -/
structure Answer where
  result : MgmtResult
  ignored : Bool := false
  fields : List Byte := []
deriving DecidableEq, Repr

/-- R184, R185: a MGMT_REPLY. -/
def mgmtReply (e : MgmtEntry) (code : Nat) (a : Answer) : Port × PartFrame :=
  (.trunk, ⟨e.source, .mgmtReply code a.result e.sequence a.ignored a.fields⟩)

/-- A management command is served: taken, judged with its effects, and answered (R184). `f` answers nothing for a
command that is not the row's. -/
def serve (code : Nat) (f : MgmtCommand → State → Option (Answer × State)) (s : State) : State :=
  match nextCommand s with
  | none => s
  | some (e, s1) =>
    match f e.command s1 with
    | none => s
    | some (a, s2) => mgmtFinish [mgmtReply e code a] s2

/-- An answer that changes nothing. -/
def answered (r : MgmtResult) (s : State) : Answer × State := ({ result := r }, s)

/-! ## Reads -/

/-- R188: STATUS_READ by section and index; a section that is none of the three is answered BAD_VALUE. -/
def statusRead (sect index : Nat) (s : State) : Answer × State :=
  match sect with
  | 1 => ({ result := .done, fields := partStatus s }, s)
  | 2 =>
    match index? 48 index with
    | none => answered .badIndex s
    | some r => ({ result := .done, fields := rideStatus s r }, s)
  | 3 =>
    match index? 64 index with
    | none => answered .badIndex s
    | some b => ({ result := .done, fields := boardStatus s b }, s)
  | _ => answered .badValue s

/-- A STATUS_READ of a given section, or of a section that is none of the three (log 6). -/
def statusOf (own sect index : Nat) (s : State) : Option (Answer × State) :=
  if sect = own ∨ sect = 0 ∨ 3 < sect then some (statusRead sect index s) else none

/-- R187: TABLE_READ. -/
def tableRead (table index : Nat) (fields : List Nat) (s : State) : Answer × State :=
  match judgeNames table index fields with
  | .error x => answered x s
  | .ok (t, e) => ({ result := .done, fields := fieldBytes s t e fields }, s)

/-- R189: COUNTS_READ. With the first index and the count both out of range the index is judged first (log 38). -/
def countsRead (first count : Nat) (s : State) : Answer × State :=
  if 47 < first then answered .badIndex s
  else if count = 0 ∨ 48 < count then answered .badValue s
  else ({ result := .done, fields := countsBytes s first count }, s)

/-- R60: CALENDAR_READ. -/
def calendarRead (ride first count : Nat) (s : State) : Answer × State :=
  match index? 48 ride with
  | none => answered .badIndex s
  | some r =>
    if count = 0 ∨ 96 < count then answered .badValue s
    else if inDay s.day.phase = false ∨ rideState s r = .off then answered .notFound s
    else if (look s.calendar.windows r).length ≤ first then answered .badIndex s
    else ({ result := .done, fields := calendarBytes s r first count }, s)

/-- R74: GUEST_READ, EXACT. A credential of 0 or all-ones is answered BAD_VALUE in NIGHT and CHECKING too (log 37). -/
def guestReadExact (c : Credential) (s : State) : Answer × State :=
  if validCredential c then
    match guestOf c s.guests with
    | none => answered .notFound s
    | some g => ({ result := .done, fields := guestBytes s g }, s)
  else answered .badValue s

/-- R75: GUEST_READ, NEXT. -/
def guestReadNext (c : Credential) (s : State) : Answer × State :=
  match s.guests.find? fun g => decide (c.toNat < g.credential.toNat) with
  | none => answered .notFound s
  | some g => ({ result := .done, fields := guestBytes s g }, s)

/-! ## Tables and notices -/

/-- R186, R187: TABLE_WRITE. A reply other than DONE leaves the field-ignored indicator off (log 35). -/
def tableWrite (table index : Nat) (items : List (Nat × Nat)) (order : List BoardIx) (s : State) : Answer × State :=
  match judgeWrite s table index items with
  | .error x => answered x s
  | .ok e => ({ result := .done, ignored := ignoresCurve e items }, takeWrite e items order s)

/-- R191: NOTICE_SET. -/
def noticeSet (flags : BitVec 16) (target : Addr) (s : State) : Answer × State :=
  match flagsOfWord flags with
  | none => answered .badValue s
  | some fs =>
    answered .done { s with day := { s.day with enableSet := fs, park := { s.day.park with noticeTarget := target } } }

/-- R192: NOTICE_CLEAR. -/
def noticeClear (flags : BitVec 16) (s : State) : Answer × State :=
  match flagsOfWord flags with
  | none => answered .badValue s
  | some fs =>
    answered .done { s with management := { s.management with
      flags := withoutFlags s.management.flags fs, hold := false } }

/-! ## The day and the clock -/

/-- R7: DAY_OPEN. -/
def dayOpen (s : State) : Answer × State :=
  if s.day.phase ≠ .night then answered .refusedPhase s
  else if s.day.clock = none then answered .clockUnset s
  else
    let s1 := setPhase .checking s
    answered .accepted { s1 with
      day := { s1.day with check := {} }
      management := { s1.management with counts := filled 48 {} } }

/-- R12: the phases by their codes (R201). -/
def phaseOf : Nat → Option Phase
  | 1 => some .night
  | 2 => some .checking
  | 3 => some .preopen
  | 4 => some .opened
  | 5 => some .lastCall
  | _ => none

/-- R12: PHASE_SET. -/
def phaseSet (code : Nat) (s : State) : Answer × State :=
  match phaseOf code with
  | none => answered .badValue s
  | some p =>
    if inDay s.day.phase = false then answered .refusedPhase s
    else if phaseCode p < phaseCode s.day.phase then answered .refusedPhase s
    else answered .done (setPhase p s)

/-- R11, R14: DAY_CLOSE. -/
def dayClose (s : State) : Answer × State :=
  match s.day.phase with
  | .night => answered .done s
  | .checking =>
    answered .done (setPhase .night
      { s with day := { s.day with check := { s.day.check with outcome := .aborted } } })
  | .preopen => answered .done (closeDay s)
  | .opened => answered .done (closeDay s)
  | .lastCall => answered .done (closeDay s)

/-- R3: CLOCK_SET. -/
def clockSet (hours minutes seconds : Nat) (s : State) : Answer × State :=
  if 23 < hours ∨ 59 < minutes ∨ 59 < seconds then answered .badValue s
  else if s.day.phase = .checking then answered .busy s
  else if inDay s.day.phase = true then answered .refusedPhase s
  else answered .done (setClock (hours * 3600 + minutes * 60 + seconds) s)

/-- R4: CLOCK_TRIM. -/
def clockTrim (seconds : Int) (orders : List (List Boundary)) (s : State) : Answer × State :=
  if seconds = 0 ∨ seconds < -59 ∨ 59 < seconds then answered .badValue s
  else if s.day.phase = .checking then answered .busy s
  else if s.day.clock = none then answered .clockUnset s
  else answered .done (trimClock seconds orders s)

/-! ## Rides, boards and passes -/

/-- R23: RIDE_OVERRIDE. -/
def rideOverride (ride state : Nat) (s : State) : Answer × State :=
  match index? 48 ride with
  | none => answered .badIndex s
  | some r =>
    match reportedState state with
    | none => answered .badValue s
    | some st =>
      if s.day.phase = .checking then answered .busy s
      else if s.day.phase = .night then answered .refusedPhase s
      else if rideState s r = .off then answered .notFound s
      else answered .done (reportState r st s)

/-- R201: 1 LIVE, 2 HOLD, 3 BLANK. -/
def boardModeOf : Nat → Option BoardModeKind
  | 1 => some .live
  | 2 => some .hold
  | 3 => some .blank
  | _ => none

/-- R178: BOARD_MODE. -/
def boardMode (board mode : Nat) (s : State) : Answer × State :=
  match index? 64 board with
  | none => answered .badIndex s
  | some b =>
    match boardModeOf mode with
    | none => answered .badValue s
    | some m =>
      if s.day.phase = .checking then answered .busy s
      else if (boardOf s b).mode = m then answered .done s
      else answered .done (changeMode b m s)

/-- R73: PASS_REVOKE. -/
def passRevoke (ride : Nat) (c : Credential) (s : State) : Answer × State :=
  match index? 48 ride with
  | none => answered .badIndex s
  | some r =>
    if validCredential c = false then answered .badValue s
    else if s.day.phase = .checking then answered .busy s
    else if s.day.phase = .night ∨ rideState s r = .off then answered .notFound s
    else match removalClaim c r s with
      | none => answered .notFound s
      | some (x, s1) =>
        ({ result := .done, fields := removedBytes x },
          changeCounts r (fun n => { n with cancelled := countUp n.cancelled 1 }) s1)

/-- R194: SOFT_RESET: the Management Unit serves no further command until its reply has left the TRUNK port. -/
def softReset (s : State) : Answer × State :=
  answered .done { s with management := { s.management with softReset := .replyPending } }

/-! ## Waiting frames and flags -/

/-- The frame is a MGMT_REPLY. -/
def isMgmtReply (f : PartFrame) : Bool :=
  match f.message with
  | .mgmtReply _ _ _ _ _ => true
  | _ => false

/-- R184, R193: room has appeared for the frame the Management Unit waits with; those behind it follow as far as there is
room. -/
def mgmtResume (reply : Bool) (s : State) : State :=
  match s.management.outbox with
  | [] => s
  | (_, f) :: _ =>
    if isMgmtReply f = reply ∧ canResume .management s.management.outbox s = true then
      let x := resume .management s.management.outbox s
      mgmtFinish [] { x.1 with management := { x.1.management with outbox := x.2 } }
    else s

/-- R190: a flag hand-off is taken. -/
def takeFlag (f : Flag) (s : State) : State :=
  if s.out.flags.contains f then
    mgmtFinish [] { s with
      out := { s.out with flags := s.out.flags.erase f }
      management := { s.management with flags := withFlag s.management.flags f } }
  else s

/-! ## The meanings -/

/-- STATUS_READ_PART (R188). -/
def execStatusReadPart (s : State) : Result :=
  event (serve 0x01 fun c s => match c with
    | .statusRead sect index => statusOf 1 sect index s
    | _ => none) s

/-- STATUS_READ_RIDE (R188). -/
def execStatusReadRide (s : State) : Result :=
  event (serve 0x01 fun c s => match c with
    | .statusRead sect index => statusOf 2 sect index s
    | _ => none) s

/-- STATUS_READ_BOARD (R188). -/
def execStatusReadBoard (s : State) : Result :=
  event (serve 0x01 fun c s => match c with
    | .statusRead sect index => statusOf 3 sect index s
    | _ => none) s

/-- TABLE_READ (R187). -/
def execTableRead (s : State) : Result :=
  event (serve 0x02 fun c s => match c with
    | .tableRead table index fields => some (tableRead table index fields s)
    | _ => none) s

/-- TABLE_WRITE (R186). -/
def execTableWrite (order : List BoardIx) (s : State) : Result :=
  event (serve 0x03 fun c s => match c with
    | .tableWrite table index items => some (tableWrite table index items order s)
    | _ => none) s

/-- DAY_OPEN (R7). -/
def execDayOpen (s : State) : Result :=
  event (serve 0x04 fun c s => match c with
    | .dayOpen => some (dayOpen s)
    | _ => none) s

/-- PHASE_SET (R12). -/
def execPhaseSet (s : State) : Result :=
  event (serve 0x05 fun c s => match c with
    | .phaseSet code => some (phaseSet code s)
    | _ => none) s

/-- DAY_CLOSE (R14). -/
def execDayClose (s : State) : Result :=
  event (serve 0x06 fun c s => match c with
    | .dayClose => some (dayClose s)
    | _ => none) s

/-- CLOCK_SET (R3). -/
def execClockSet (s : State) : Result :=
  event (serve 0x07 fun c s => match c with
    | .clockSet hours minutes seconds => some (clockSet hours minutes seconds s)
    | _ => none) s

/-- CLOCK_TRIM (R4, R5). -/
def execClockTrim (orders : List (List Boundary)) (s : State) : Result :=
  event (serve 0x08 fun c s => match c with
    | .clockTrim seconds => some (clockTrim seconds orders s)
    | _ => none) s

/-- RIDE_OVERRIDE (R23). -/
def execRideOverride (s : State) : Result :=
  event (serve 0x09 fun c s => match c with
    | .rideOverride ride state => some (rideOverride ride state s)
    | _ => none) s

/-- BOARD_MODE (R178). -/
def execBoardMode (s : State) : Result :=
  event (serve 0x0A fun c s => match c with
    | .boardMode board mode => some (boardMode board mode s)
    | _ => none) s

/-- NOTICE_SET (R191). -/
def execNoticeSet (s : State) : Result :=
  event (serve 0x0B fun c s => match c with
    | .noticeSet flags target => some (noticeSet flags target s)
    | _ => none) s

/-- NOTICE_CLEAR (R192). -/
def execNoticeClear (s : State) : Result :=
  event (serve 0x0C fun c s => match c with
    | .noticeClear flags => some (noticeClear flags s)
    | _ => none) s

/-- COUNTS_READ (R189). -/
def execCountsRead (s : State) : Result :=
  event (serve 0x0D fun c s => match c with
    | .countsRead first count => some (countsRead first count s)
    | _ => none) s

/-- CALENDAR_READ (R60). -/
def execCalendarRead (s : State) : Result :=
  event (serve 0x0E fun c s => match c with
    | .calendarRead ride first count => some (calendarRead ride first count s)
    | _ => none) s

/-- GUEST_READ_EXACT (R74); a mode that is neither EXACT nor NEXT is answered BAD_VALUE (R199, log 6). -/
def execGuestReadExact (s : State) : Result :=
  event (serve 0x0F fun c s => match c with
    | .guestRead mode credential =>
      if mode = 1 then some (guestReadExact credential s)
      else if mode = 2 then none
      else some (answered .badValue s)
    | _ => none) s

/-- GUEST_READ_NEXT (R75); a mode that is neither EXACT nor NEXT is answered BAD_VALUE (R199, log 6). -/
def execGuestReadNext (s : State) : Result :=
  event (serve 0x0F fun c s => match c with
    | .guestRead mode credential =>
      if mode = 2 then some (guestReadNext credential s)
      else if mode = 1 then none
      else some (answered .badValue s)
    | _ => none) s

/-- PASS_REVOKE (R73). -/
def execPassRevoke (s : State) : Result :=
  event (serve 0x10 fun c s => match c with
    | .passRevoke ride credential => some (passRevoke ride credential s)
    | _ => none) s

/-- SOFT_RESET (R194). -/
def execSoftReset (s : State) : Result :=
  event (serve 0x11 fun c s => match c with
    | .softReset => some (softReset s)
    | _ => none) s

/-- MGMT_REPLY_WRITE: the frame the Management Unit waits with is a MGMT_REPLY (R184). -/
def execMgmtReplyWrite (s : State) : Result := event (mgmtResume true) s

/-- NOTICE_WRITE: the frame the Management Unit waits with is a NOTICE (R193). -/
def execNoticeWrite (s : State) : Result := event (mgmtResume false) s

/-- NOTICE_FLAG_SET (R190). -/
def execNoticeFlagSet (f : Flag) (s : State) : Result := event (takeFlag f) s

end Sys2Proof.Machine
end

