-- ==== Sys2Proof/Machine/Operands.lean ====
section
/-! DEFINITION. Reading a received frame: the header, the length check of each kind, and the fields of the messages the
part acts on (R196 to R202). Offsets are those of the spec's tables; multi-byte numbers are sent most significant byte
first (R199). -/

namespace Sys2Proof.Machine

/-! ## Bytes -/

def byteAt (bs : List Byte) (i : Nat) : Byte := bs.getD i 0
def num1 (bs : List Byte) (i : Nat) : Nat := (byteAt bs i).toNat
def word2 (bs : List Byte) (i : Nat) : BitVec 16 := byteAt bs i ++ byteAt bs (i + 1)
def num2 (bs : List Byte) (i : Nat) : Nat := (word2 bs i).toNat
def cred6 (bs : List Byte) (i : Nat) : Credential :=
  byteAt bs i ++ byteAt bs (i + 1) ++ byteAt bs (i + 2) ++ byteAt bs (i + 3) ++ byteAt bs (i + 4) ++ byteAt bs (i + 5)

/-! ## Kinds and lengths -/

/-- R198: the message kinds. -/
inductive Kind where
  | tap | verdict | dispatch | rideStatus | passRequest | passCancel | passList | passReply | passChange
  | boardFrame | notice | mgmtCommand | mgmtReply
deriving DecidableEq, Repr

/-- R198: the kind codes. -/
def kindOf : Nat → Option Kind
  | 0x01 => some .tap
  | 0x02 => some .verdict
  | 0x03 => some .dispatch
  | 0x04 => some .rideStatus
  | 0x10 => some .passRequest
  | 0x11 => some .passCancel
  | 0x12 => some .passList
  | 0x13 => some .passReply
  | 0x14 => some .passChange
  | 0x20 => some .boardFrame
  | 0x21 => some .notice
  | 0x30 => some .mgmtCommand
  | 0x31 => some .mgmtReply
  | _ => none

/-- R200: the body length of a PASS_REPLY by its result; "others" carry nothing more (log 19). -/
def passReplyLength (body : List Byte) : Nat :=
  match num1 body 0 with
  | 1 => 12 + num1 body 1
  | 2 => 4 + num1 body 1
  | 7 => 4 + 8 * num1 body 1
  | 8 => 10
  | _ => 4

/-- R201: the widths of a management command's fields, `none` for a code that is not in the command table. -/
def commandFieldsLength (body : List Byte) : Option Nat :=
  match num1 body 0 with
  | 0x01 => some 2
  | 0x02 => some (4 + num1 body 7)
  | 0x03 => some (4 + 3 * num1 body 7)
  | 0x04 => some 0
  | 0x05 => some 1
  | 0x06 => some 0
  | 0x07 => some 3
  | 0x08 => some 1
  | 0x09 => some 2
  | 0x0A => some 2
  | 0x0B => some 4
  | 0x0C => some 2
  | 0x0D => some 2
  | 0x0E => some 3
  | 0x0F => some 7
  | 0x10 => some 7
  | 0x11 => some 0
  | _ => none

/-- R203: whether a received MGMT_REPLY's length is one that its layout gives. Only DONE (1) carries reply fields;
a STATUS_READ reply does not name its section, so any of the three lengths fits (log 19). -/
def mgmtReplyLengthOk (body : List Byte) : Bool :=
  let n := body.length
  if num1 body 1 = 1 then
    match num1 body 0 with
    | 0x01 => n == 6 + 49 || n == 6 + 47 || n == 6 + 3
    | 0x02 => decide (6 ≤ n) && (n - 6) % 3 == 0
    | 0x0D => n == 7 + 43 * num1 body 6
    | 0x0E => n == 7 + 23 * num1 body 6 + 6
    | 0x0F => n == 13 + 13 * num1 body 12 + 3
    | 0x10 => n == 6 + 4
    | _ => n == 6
  else n == 6

/-- R197, R198: the body has the length that the kind's layout gives for the counts it carries. -/
def lengthOk (k : Kind) (body : List Byte) : Bool :=
  match k with
  | .tap => body.length == 10
  | .verdict => body.length == 8
  | .dispatch => body.length == 2
  | .rideStatus => body.length == 2
  | .passRequest => body.length == 16 + 2 * num1 body 7
  | .passCancel => body.length == 10
  | .passList => body.length == 10
  | .passReply => body.length == passReplyLength body
  | .passChange => body.length == 18
  | .boardFrame => body.length == 2 + 4 * num1 body 1
  | .notice => body.length == 4
  | .mgmtCommand => (commandFieldsLength body).elim false fun n => body.length == 4 + n
  | .mgmtReply => mgmtReplyLengthOk body

/-- What the Classifier finds a frame to be (R162, R197). -/
inductive Examined where
  | foreign
  | malformed
  | queueNet (destination source : Addr) (kind : Kind) (body : List Byte)
deriving DecidableEq, Repr

/-- R196, R197: the Ethernet type stands behind the two Ethernet addresses, the queue-net header behind it. -/
def examine (f : Frame) : Examined :=
  if word2 f 12 ≠ 0x88B6 then .foreign
  else
    let q := f.drop 14
    let n := num2 q 2
    let body := (q.drop 8).take n
    if num1 q 0 ≠ 0x01 then .malformed
    else match kindOf (num1 q 1) with
      | none => .malformed
      | some k =>
        if body.length = n ∧ lengthOk k body = true then .queueNet (word2 q 4) (word2 q 6) k body
        else .malformed

/-! ## Fields -/

/-- R200: a TAP's credential, head count and tag. -/
def tapFields (body : List Byte) : Credential × Nat × Tag := (cred6 body 0, num1 body 6, word2 body 8)

/-- R199, R200: a PASS_REQUEST; the first three labels are kept, and the count as carried. -/
def passRequestFields (body : List Byte) : RequestBody :=
  let n := num1 body 7
  .pass (cred6 body 0) (num1 body 6) n ((List.range (min n 3)).map fun i => word2 body (16 + 2 * i))
    (if (byteAt body 8).getLsbD 0 then some (num2 body 10) else none)
    (if (byteAt body 8).getLsbD 1 then some (num2 body 12) else none)

/-- The request a frame of one of the three request kinds carries (R200). -/
def requestOf (p : Port) (src : Addr) (k : Kind) (body : List Byte) : Option Request :=
  match k with
  | .passRequest => some ⟨p, src, word2 body 14, passRequestFields body⟩
  | .passCancel => some ⟨p, src, word2 body 8, .cancel (cred6 body 0) (word2 body 6)⟩
  | .passList => some ⟨p, src, word2 body 8, .list (cred6 body 0)⟩
  | _ => none

/-- R201: a management command by its code. -/
def commandOf (body : List Byte) : Option MgmtCommand :=
  match num1 body 0 with
  | 0x01 => some (.statusRead (num1 body 4) (num1 body 5))
  | 0x02 => some (.tableRead (num1 body 4) (num2 body 5) ((List.range (num1 body 7)).map fun i => num1 body (8 + i)))
  | 0x03 => some (.tableWrite (num1 body 4) (num2 body 5)
      ((List.range (num1 body 7)).map fun i => (num1 body (8 + 3 * i), num2 body (9 + 3 * i))))
  | 0x04 => some .dayOpen
  | 0x05 => some (.phaseSet (num1 body 4))
  | 0x06 => some .dayClose
  | 0x07 => some (.clockSet (num1 body 4) (num1 body 5) (num1 body 6))
  | 0x08 => some (.clockTrim (byteAt body 4).toInt)
  | 0x09 => some (.rideOverride (num1 body 4) (num1 body 5))
  | 0x0A => some (.boardMode (num1 body 4) (num1 body 5))
  | 0x0B => some (.noticeSet (word2 body 4) (word2 body 6))
  | 0x0C => some (.noticeClear (word2 body 4))
  | 0x0D => some (.countsRead (num1 body 4) (num1 body 5))
  | 0x0E => some (.calendarRead (num1 body 4) (num1 body 5) (num1 body 6))
  | 0x0F => some (.guestRead (num1 body 4) (cred6 body 5))
  | 0x10 => some (.passRevoke (num1 body 4) (cred6 body 5))
  | 0x11 => some .softReset
  | _ => none

/-- R201: the management intake's entry for a frame. -/
def entryOf (src : Addr) (body : List Byte) : Option MgmtEntry :=
  (commandOf body).map fun c => ⟨src, word2 body 2, c⟩

end Sys2Proof.Machine
end

