-- ==== Sys2Proof/Machine/Ports.lean ====
section
/-! DEFINITION. The line ports, the Classifiers, the intakes and the egress arbiters (chapter 10). -/

namespace Sys2Proof.Machine

/-! ## Reception (R161) -/

/-- R161: a frame that is not discarded: good check sequence, whole, and at least 64 bytes with the check sequence. -/
def receivable (f : RxFrame) : Bool := f.goodCheck && f.whole && decide (64 ≤ f.bytes.length + 4)

/-- R161: a received frame joins the receive buffer, or is dropped with RELAY_DROP. -/
def receiveFrame (p : Port) (f : RxFrame) (s : State) : State :=
  if receivable f then
    let ps := portOf s p
    if ps.receiveBuffer.length < Config.rxPlaces then
      setPort s p { ps with receiveBuffer := ps.receiveBuffer ++ [f.bytes] }
    else raise .relayDrop s
  else s

/-! ## Relay and intakes (R167, R170, R171) -/

/-- R167: a frame joins the relay queue of the port it is to leave from, or is dropped with RELAY_DROP. -/
def relayTo (out : Port) (f : Frame) (s : State) : State :=
  let ps := portOf s out
  if ps.relayQueue.length < Config.relayPlaces then setPort s out { ps with relayQueue := ps.relayQueue ++ [f] }
  else raise .relayDrop s

/-- R170: an acted frame joins the field intake with the clock time of its sorting, or INTAKE_OVERFLOW is set. -/
def joinFieldIntake (src : Addr) (body : FieldBody) (s : State) : State :=
  if s.fieldIntake.length < Config.fieldPlaces then
    { s with fieldIntake := s.fieldIntake ++ [⟨src, s.day.clock, body⟩] }
  else raise .intakeOverflow s

/-- R171: a management command joins the management intake, or INTAKE_OVERFLOW is set. -/
def joinMgmtIntake (e : MgmtEntry) (s : State) : State :=
  if s.mgmtIntake.length < Config.mgmtPlaces then { s with mgmtIntake := s.mgmtIntake ++ [e] }
  else raise .intakeOverflow s

/-! ## Sorting (R162 to R164) -/

/-- R162: the destination is the part's own address; with a strap address of 0 no frame is addressed to the part. -/
def addressedToPart (s : State) (dst : Addr) : Bool := s.nodeAddress != 0 && dst == s.nodeAddress

/-- R163: a TAP of a used reader goes by the reader's claim mode as it stands. -/
def sortTap (f : Frame) (src : Addr) (i : ReaderIx) (body : List Byte) (s : State) : State :=
  let t := tapFields body
  match (look s.readers i).claimMode with
  | .forward => relayTo .trunk f s
  | .observe => relayTo .trunk f (joinFieldIntake src (.tap i .observe t.1 t.2.1 t.2.2) s)
  | .own => joinFieldIntake src (.tap i .own t.1 t.2.1 t.2.2) s
  | .ownCopy => relayTo .trunk f (joinFieldIntake src (.tap i .ownCopy t.1 t.2.1 t.2.2) s)

/-- R163: a DISPATCH or RIDE_STATUS goes by the controller lookup of R20; without an enabled ride it is any other
frame. -/
def sortController (f : Frame) (src : Addr) (body : FieldBody) (s : State) : State :=
  match rideByController s src with
  | none => relayTo .trunk f s
  | some r =>
    let s1 := joinFieldIntake src body s
    if (rideEntry s r).controllerRelay then relayTo .trunk f s1 else s1

/-- R163: the FIELD port's table. -/
def sortField (f : Frame) (dst src : Addr) (k : Kind) (body : List Byte) (s : State) : State :=
  if k = .mgmtCommand then raise .badMessage s
  else if addressedToPart s dst then
    match requestOf .field src k body with
    | some q => sortRequest q s
    | none => raise .badMessage s
  else match k with
    | .tap =>
      match readerByAddress s src with
      | some i => sortTap f src i body s
      | none => relayTo .trunk f s
    | .dispatch => sortController f src (.dispatch (num1 body 0)) s
    | .rideStatus => sortController f src (.rideStatus (num1 body 0)) s
    | _ => relayTo .trunk f s

/-- R164: the TRUNK port's table. -/
def sortTrunk (f : Frame) (dst src : Addr) (k : Kind) (body : List Byte) (s : State) : State :=
  if addressedToPart s dst then
    if k = .mgmtCommand then
      match entryOf src body with
      | some e => joinMgmtIntake e s
      | none => raise .badMessage s
    else match requestOf .trunk src k body with
      | some q => sortRequest q s
      | none => raise .badMessage s
  else relayTo .field f s

/-- R162: what becomes of a frame that a Classifier takes. -/
def sortFrame (p : Port) (f : Frame) (s : State) : State :=
  match examine f with
  | .foreign => relayTo (otherPort p) f s
  | .malformed => raise .badMessage s
  | .queueNet dst src k body =>
    if dst = BitVec.allOnes 16 ∨ src = 0 ∨ src = BitVec.allOnes 16 then relayTo (otherPort p) f s
    else match p with
      | .field => sortField f dst src k body s
      | .trunk => sortTrunk f dst src k body s

/-- R161, R172: the Classifier takes the head frame of its receive buffer, unless it waits with a request. -/
def classify (p : Port) (s : State) : State :=
  let ps := portOf s p
  if ps.heldRequest.isSome then s
  else match ps.receiveBuffer with
    | [] => s
    | f :: rest => sortFrame p f (setPort s p { ps with receiveBuffer := rest })

/-! ## Transmission (R169) -/

/-- R169: the queue whose head is sent next. -/
def nextQueue (ps : PortState) : Option Preference :=
  match ps.relayQueue, ps.partQueue with
  | [], [] => none
  | _ :: _, [] => some .relay
  | [], _ :: _ => some .part
  | _ :: _, _ :: _ => some ps.nextPreference

/-- The frame is the MGMT_REPLY of a SOFT_RESET (R194, R201). -/
def isSoftResetReply (f : PartFrame) : Bool :=
  match f.message with
  | .mgmtReply code _ _ _ _ => code == 0x11
  | _ => false

/-- R194: the transmission of a SOFT_RESET's reply has begun at the TRUNK port. -/
def noteReplySending (p : Port) (f : PartFrame) (s : State) : State :=
  if p = .trunk ∧ isSoftResetReply f = true ∧ s.management.softReset = .replyPending then
    { s with management := { s.management with softReset := .replySending } }
  else s

/-- R169: an idle port with its link up starts a transmission; the next preference becomes the queue not sent from. -/
def startTransmission (p : Port) (s : State) : State :=
  let ps := portOf s p
  if ps.linkUp = true ∧ ps.transmitting = none then
    match nextQueue ps with
    | none => s
    | some .relay =>
      match ps.relayQueue with
      | [] => s
      | f :: rest => setPort s p { ps with relayQueue := rest, transmitting := some f, nextPreference := .part }
    | some .part =>
      match ps.partQueue with
      | [] => s
      | f :: rest =>
        noteReplySending p f
          (setPort s p { ps with
            partQueue := rest, transmitting := some (wireBytes s.nodeAddress f), nextPreference := .relay })
  else s

/-- R169, R194: the transmission ends; the soft reset is due once its reply has left. -/
def endTransmission (p : Port) (s : State) : State :=
  let s1 := setPort s p { portOf s p with transmitting := none }
  if p = .trunk ∧ s.management.softReset = .replySending then
    { s1 with management := { s1.management with softReset := .due } }
  else s1

/-! ## The meanings -/

/-- LINK_STATE_CHANGE: the physical layer reports a link up or down; it acts on the next transmission start (R169,
log 8). The report is made whatever RESET_N is. -/
def execLinkStateChange (p : Port) (up : Bool) (s : State) : Result :=
  .next (setPort s p { portOf s p with linkUp := up })

/-- FRAME_RECEIVED (R161). -/
def execFrameReceived (p : Port) (f : RxFrame) (s : State) : Result := event (receiveFrame p f) s

/-- CLASSIFY_FRAME (R162 to R164, R172). -/
def execClassifyFrame (p : Port) (s : State) : Result := event (classify p) s

/-- TRANSMISSION_START (R169). -/
def execTransmissionStart (p : Port) (s : State) : Result := event (startTransmission p) s

/-- TRANSMISSION_END: at a port that transmits (R169). -/
def execTransmissionEnd (p : Port) (s : State) : Result :=
  event (fun s => if (portOf s p).transmitting.isSome then endTransmission p s else s) s

end Sys2Proof.Machine
end

