-- ==== Sys2Proof/Machine/Resets.lean ====
section
/-! DEFINITION. Power-on, the line reset and the soft reset: each block's value after each (R1, R2, R9, R17, R18, R21,
R26, R30, R36, R38, R57, R61, R84, R96, R97, R114, R133, R149, R165, R173, R174, R175, R177, R189, R194, R195). -/

namespace Sys2Proof.Machine

/-- The state after power-on with the strap pins at an address. The links stay as the physical layer reports them, and
the commands that wait are none of the part's state (log 8). A power-on while RESET_N is low leaves RESET_N not asserted
(log 34). -/
def powerOnState (strap : Addr) (s : State) : State :=
  { State.reset with
    pending := s.pending
    nodeAddress := strap
    fieldPort := { linkUp := s.fieldPort.linkUp }
    trunkPort := { linkUp := s.trunkPort.linkUp } }

/-- The values a line reset keeps: the tables, the park settings but for NOTICE_TARGET and the enable set, and the held
values; with the posted values that are still to be handed over (log 3). -/
def lineResetKept (strap : Addr) (s : State) : State :=
  { powerOnState strap s with
    readers := s.readers
    day := { park := { s.day.park with noticeTarget := 0 } }
    rideTable := s.rideTable
    calendar := { profiles := s.calendar.profiles, windows := filled 48 [], flex := filled 48 [] }
    tallies := s.tallies
    boardTable := s.boardTable
    heldValues := s.heldValues
    out := { posted := s.out.posted } }

/-- The state after a line reset. The posted values that R133 sets are handed over where they change (R147). -/
def lineResetState (strap : Addr) (s : State) : State := emptyTallies 0 (restRides (lineResetKept strap s))

/-- R2, R161, R173, R195: RESET_N goes low, and the part is in line reset while it is low: every block takes its value of
a line reset at once, and the strap pins are sampled at the release (log 9). -/
def assertReset (s : State) : State := { lineResetState s.nodeAddress s with resetLow := true }

/-- R173: a port at a soft reset; a transmission goes on. -/
def clearPort (ps : PortState) : PortState := { linkUp := ps.linkUp, transmitting := ps.transmitting }

/-- R9: the check result record at a soft reset. -/
def softResetCheck (d : DayController) : CheckRecord :=
  if d.phase = .checking then { d.check with outcome := .aborted } else d.check

/-- What a soft reset does to the blocks other than the Ride State Unit and the Standby Tally Unit. -/
def softResetBlocks (s : State) : State :=
  { s with
    fieldPort := clearPort s.fieldPort
    trunkPort := clearPort s.trunkPort
    fieldIntake := []
    mgmtIntake := []
    day := { s.day with phase := .night, check := softResetCheck s.day }
    calendar := { s.calendar with windows := filled 48 [], flex := filled 48 [] }
    guests := []
    engine := {}
    admission := {}
    walker := {}
    monitors := filled 48 {}
    boards := tmap (fun x => { x with pending := false, deferred := false }) s.boards
    management := { s.management with flags := 0, hold := false, outbox := [], softReset := .none } }

/-- R194: the soft reset acts. Outstanding hand-offs are taken afterwards (R30, R115, log 3). -/
def softResetState (s : State) : State := emptyTallies 0 (restRides (softResetBlocks s))

/-! ## The meanings -/

/-- POWER_ON (R195). -/
def execPowerOn (strap : Addr) (s : State) : Result := .next (powerOnState strap s)

/-- LINE_RESET: the release of RESET_N, at which the strap pins are sampled (R195); without an assertion before it, it
stands for the whole pulse (log 9). -/
def execLineReset (strap : Addr) (s : State) : Result := .next (lineResetState strap s)

/-- RESET_N_ASSERTED (R161, R195). -/
def execResetNAsserted (s : State) : Result := .next (assertReset s)

/-- SOFT_RESET_ACTION: once the reply of a SOFT_RESET has left the TRUNK port (R194). -/
def execSoftResetAction (s : State) : Result :=
  event (fun s => if s.management.softReset = .due then softResetState s else s) s

end Sys2Proof.Machine
end

