-- ==== Sys2Proof/Machine/Dispatch.lean ====
section
/-! DEFINITION. The meaning of each command. -/

namespace Sys2Proof.Machine

def exec (i : Instr) (s : State) : Host.Outcome State Fault Refusal :=
  match i with
  | .powerOn strap => Sys2Proof.Machine.execPowerOn strap s
  | .lineReset strap => Sys2Proof.Machine.execLineReset strap s
  | .linkStateChange port up => Sys2Proof.Machine.execLinkStateChange port up s
  | .frameReceived port frame => Sys2Proof.Machine.execFrameReceived port frame s
  | .classifyFrame port => Sys2Proof.Machine.execClassifyFrame port s
  | .queueFullWrite port => Sys2Proof.Machine.execQueueFullWrite port s
  | .transmissionStart port => Sys2Proof.Machine.execTransmissionStart port s
  | .transmissionEnd port => Sys2Proof.Machine.execTransmissionEnd port s
  | .clockAdvance => Sys2Proof.Machine.execClockAdvance s
  | .openMinuteBoundary => Sys2Proof.Machine.execOpenMinuteBoundary s
  | .lastCallBoundary => Sys2Proof.Machine.execLastCallBoundary s
  | .midnightWrap => Sys2Proof.Machine.execMidnightWrap s
  | .earlyRedemptionTime ride window => Sys2Proof.Machine.execEarlyRedemptionTime ride window s
  | .windowEnd ride window => Sys2Proof.Machine.execWindowEnd ride window s
  | .closingTime ride window => Sys2Proof.Machine.execClosingTime ride window s
  | .postingTick => Sys2Proof.Machine.execPostingTick s
  | .dispatchHistoryRotation => Sys2Proof.Machine.execDispatchHistoryRotation s
  | .gapTimerExpiry ride => Sys2Proof.Machine.execGapTimerExpiry ride s
  | .holdExpiry => Sys2Proof.Machine.execHoldExpiry s
  | .boardSpacingEnd board => Sys2Proof.Machine.execBoardSpacingEnd board s
  | .boardRefresh board => Sys2Proof.Machine.execBoardRefresh board s
  | .statusReadPart => Sys2Proof.Machine.execStatusReadPart s
  | .statusReadRide => Sys2Proof.Machine.execStatusReadRide s
  | .statusReadBoard => Sys2Proof.Machine.execStatusReadBoard s
  | .tableRead => Sys2Proof.Machine.execTableRead s
  | .tableWrite order => Sys2Proof.Machine.execTableWrite order s
  | .dayOpen => Sys2Proof.Machine.execDayOpen s
  | .checkComplete => Sys2Proof.Machine.execCheckComplete s
  | .phaseSet => Sys2Proof.Machine.execPhaseSet s
  | .dayClose => Sys2Proof.Machine.execDayClose s
  | .clockSet => Sys2Proof.Machine.execClockSet s
  | .clockTrim orders => Sys2Proof.Machine.execClockTrim orders s
  | .rideOverride => Sys2Proof.Machine.execRideOverride s
  | .boardMode => Sys2Proof.Machine.execBoardMode s
  | .noticeSet => Sys2Proof.Machine.execNoticeSet s
  | .noticeClear => Sys2Proof.Machine.execNoticeClear s
  | .countsRead => Sys2Proof.Machine.execCountsRead s
  | .calendarRead => Sys2Proof.Machine.execCalendarRead s
  | .guestReadExact => Sys2Proof.Machine.execGuestReadExact s
  | .guestReadNext => Sys2Proof.Machine.execGuestReadNext s
  | .passRevoke => Sys2Proof.Machine.execPassRevoke s
  | .softReset => Sys2Proof.Machine.execSoftReset s
  | .softResetAction => Sys2Proof.Machine.execSoftResetAction s
  | .mgmtReplyWrite => Sys2Proof.Machine.execMgmtReplyWrite s
  | .noticeWrite => Sys2Proof.Machine.execNoticeWrite s
  | .noticeFlagSet flag => Sys2Proof.Machine.execNoticeFlagSet flag s
  | .tap => Sys2Proof.Machine.execTap s
  | .verdictWrite => Sys2Proof.Machine.execVerdictWrite s
  | .dispatch => Sys2Proof.Machine.execDispatch s
  | .rideStatus => Sys2Proof.Machine.execRideStatus s
  | .creditAddition ride => Sys2Proof.Machine.execCreditAddition ride s
  | .standbyHandoff position => Sys2Proof.Machine.execStandbyHandoff position s
  | .dispatchHandoff ride => Sys2Proof.Machine.execDispatchHandoff ride s
  | .dispatchRecord ride => Sys2Proof.Machine.execDispatchRecord ride s
  | .evaluation ride => Sys2Proof.Machine.execEvaluation ride s
  | .recomputation ride => Sys2Proof.Machine.execRecomputation ride s
  | .calendarStateHandoff ride => Sys2Proof.Machine.execCalendarStateHandoff ride s
  | .tallyStateHandoff ride => Sys2Proof.Machine.execTallyStateHandoff ride s
  | .boardStateHandoff ride order => Sys2Proof.Machine.execBoardStateHandoff ride order s
  | .postedValueHandoff ride order => Sys2Proof.Machine.execPostedValueHandoff ride order s
  | .workItemHandoff ride window => Sys2Proof.Machine.execWorkItemHandoff ride window s
  | .displaceStep => Sys2Proof.Machine.execDisplaceStep s
  | .expireStep => Sys2Proof.Machine.execExpireStep s
  | .passChangeWrite => Sys2Proof.Machine.execPassChangeWrite s
  | .endOfDisplacement ride => Sys2Proof.Machine.execEndOfDisplacement ride s
  | .lastCallRelease => Sys2Proof.Machine.execLastCallRelease s
  | .passRequest => Sys2Proof.Machine.execPassRequest s
  | .heldServe => Sys2Proof.Machine.execHeldServe s
  | .passCancel => Sys2Proof.Machine.execPassCancel s
  | .passList => Sys2Proof.Machine.execPassList s
  | .passReplyWrite => Sys2Proof.Machine.execPassReplyWrite s
  | .resetNAsserted => Sys2Proof.Machine.execResetNAsserted s

end Sys2Proof.Machine
end

