-- ==== Sys2Proof/Safety.lean ====
section
/-! DEFINITION. The invariants of the part that the statements name. -/

namespace Sys2Proof.Machine

/-! ## The count relation of a window (R58) -/

/-- R58: T = HELD + REDEEMED + EXPIRED + MOVED_OUT, and HELD is the party sum of the holder list. -/
def Window.accountsHold (w : Window) : Prop :=
  w.booked = w.held + w.redeemed + w.expired + w.movedOut ∧ w.held = (w.holders.map Holder.party).sum

/-- R58: the count relation holds for every window. -/
def accountsHold (s : State) : Prop := ∀ r : Ride, ∀ w ∈ look s.calendar.windows r, w.accountsHold

/-! ## The empty night (R1) -/

/-- R1: outside PREOPEN, OPEN and LAST_CALL the calendar, the flex lists, the Guest Table and the Walker's list are
empty, and no item is in progress. -/
def nightIsEmpty (s : State) : Prop :=
  inDay s.day.phase = false →
    (∀ r : Ride, look s.calendar.windows r = [] ∧ look s.calendar.flex r = []) ∧ s.guests = [] ∧
      s.walker.workList = [] ∧ s.walker.item = none

/-! ## Capacities -/

/-- R161, R167, R168: the buffers of a port. -/
def portBounded (ps : PortState) : Prop :=
  ps.receiveBuffer.length ≤ 16 ∧ ps.relayQueue.length ≤ 128 ∧ ps.partQueue.length ≤ 128

/-- R78, R88, R161, R167, R168, R170, R171: no receive buffer, relay queue, part output queue, intake or request queue
holds more than its places, nor does the held list. The Walker's work list (R48) and the holder lists (R56) are not spoken
of here. -/
def queuesBounded (s : State) : Prop :=
  portBounded s.fieldPort ∧ portBounded s.trunkPort ∧ s.fieldIntake.length ≤ 256 ∧ s.mgmtIntake.length ≤ 16 ∧
    s.engine.kiosk.length ≤ 32 ∧ s.engine.remote.length ≤ 64 ∧ s.engine.heldList.length ≤ 8

/-! ## The Guest Table (R61, R62) -/

/-- R62: a record holds at least one pass and at most one for each ride. -/
def Guest.wf (g : Guest) : Prop := g.passes ≠ [] ∧ (g.passes.map Pass.ride).Nodup

/-- R61, R62: at most 65,536 records stand in strictly ascending order of credential, each under a valid credential. -/
def guestTableWf (s : State) : Prop :=
  s.guests.Pairwise (fun a b => a.credential.toNat < b.credential.toNat) ∧ s.guests.length ≤ 65536 ∧
    ∀ g ∈ s.guests, g.credential ≠ 0 ∧ g.credential ≠ BitVec.allOnes 48 ∧ g.wf

/-- R62: PASSES_PER_GUEST is at least 1, and no record holds more passes. -/
def passesBounded (s : State) : Prop :=
  1 ≤ s.day.park.passesPerGuest ∧ ∀ g ∈ s.guests, g.passes.length ≤ s.day.park.passesPerGuest

/-! ## The clock in the day (R2) -/

/-- R2: whenever the phase is not NIGHT, the clock is set. -/
def clockSetByDay (s : State) : Prop := s.day.phase ≠ .night → s.day.clock.isSome = true

/-! ## Window states (R44) -/

/-- R44: the states a window may reach from a state, itself among them. -/
def WindowState.reaches : WindowState → WindowState → Bool
  | .future, _ => true
  | .redeemable, .future => false
  | .redeemable, _ => true
  | .past, .past => true
  | .past, _ => false
  | .lost, .lost => true
  | .lost, _ => false

/-- R38, R44: every window of `t` stood in `s` at the same place with the same start and end, and its state has moved
only where R44 lets it. A window that ends after it starts does not pass from FUTURE to PAST, since its early-redemption
time and its closing time are at least a minute apart. -/
def windowsMoveForward (s t : State) : Prop :=
  ∀ r : Ride, ∀ k : Nat, ∀ w' : Window, windowOf t r k = some w' →
    ∃ w, windowOf s r k = some w ∧ w'.start = w.start ∧ w'.stop = w.stop ∧ w.state.reaches w'.state = true ∧
      (w.start < w.stop → ¬(w.state = .future ∧ w'.state = .past))

/-! ## Limits of counters (R30, R84, R134, R189) -/

/-- R134: a mark list is in order of entry time, its counts are from 1 to 255, and it holds at most 256 marks. -/
def marksWf (ms : List Mark) : Prop :=
  ms.Pairwise (fun a b => a.entry ≤ b.entry) ∧ (∀ m ∈ ms, 1 ≤ m.count ∧ m.count ≤ 255) ∧ ms.length ≤ 256

/-- R30, R84, R134: the pass credits, the run counter and the mark lists stay within their limits; with R98's limit on
the head counts of standby hand-offs that are still to be taken. -/
def countersWf (s : State) : Prop :=
  (∀ r : Ride, (look s.rides r).credit ≤ 1000 ∧ marksWf (look s.tallies r).marks) ∧ s.engine.run ≤ 15 ∧
    ∀ h ∈ s.out.standbys, 1 ≤ h.headCount ∧ h.headCount ≤ 8

/-! ## The work list (R48, R114, R115) -/

/-- The items handed to the Walker, listed or in progress. -/
def workItems (s : State) : List WorkItem := s.out.workItems.flatten ++ s.walker.workList ++ s.walker.item.toList

/-- R115: the state that a kind of item requires of its window. -/
def WorkKind.needs : WorkKind → WindowState
  | .displace => .lost
  | .expire => .past

/-- R48, R114, R115: in the day no window has two items, every item names a window in the state its kind requires, a LOST
or PAST window with holders has its item, and a ride's displacing count is the number of its DISPLACE items on the work
list and in progress. Outside the day there is no item on the list or in progress, and no ride is displacing. -/
def walkerSound (s : State) : Prop :=
  (inDay s.day.phase = true →
    ((workItems s).map fun i => (i.ride, i.window)).Nodup ∧
    (∀ i ∈ workItems s, ∃ w, windowOf s i.ride i.window = some w ∧ w.state = i.kind.needs) ∧
    (∀ r k w, windowOf s r k = some w → w.state = .lost ∨ w.state = .past → w.holders ≠ [] →
      ∃ i ∈ workItems s, i.ride = r ∧ i.window = k) ∧
    ∀ r : Ride, look s.walker.displacing r =
      ((s.walker.workList ++ s.walker.item.toList).filter fun i => decide (i.kind = .displace ∧ i.ride = r)).length) ∧
  (inDay s.day.phase = false →
    s.walker.workList = [] ∧ s.walker.item = none ∧ ∀ r : Ride, look s.walker.displacing r = 0)

/-! ## Passes and holders (R58, R63) -/

/-- R58, R63: every pass of a guest record stands, with its party, in the holder list of the window that its WINDOW names, or
on its ride's flex list where that is FLEX; every entry of a holder list or flex list is such a pass; and no list holds a
credential twice. -/
def holdingsAgree (s : State) : Prop :=
  (∀ c r p, passOf c r s.guests = some p →
    (∀ k, p.place = .window k → ∃ w, windowOf s r k = some w ∧ (⟨c, p.party⟩ : Holder) ∈ w.holders) ∧
    (p.place = .flex → (⟨c, p.party⟩ : Holder) ∈ look s.calendar.flex r)) ∧
  (∀ r k w, windowOf s r k = some w → (w.holders.map Holder.credential).Nodup ∧
    ∀ h ∈ w.holders, ∃ p, passOf h.credential r s.guests = some p ∧ p.place = .window k ∧ p.party = h.party) ∧
  ∀ r, ((look s.calendar.flex r).map Holder.credential).Nodup ∧
    ∀ h ∈ look s.calendar.flex r, ∃ p, passOf h.credential r s.guests = some p ∧ p.place = .flex ∧ p.party = h.party

/-! ## What a day close leaves (R15) -/

/-- R15, R133: what the day-close action leaves of the day: the phase NIGHT and everything of the day emptied. -/
def dayEmptied (s t : State) : Prop :=
  t.day.phase = .night ∧
  (∀ r : Ride, look t.calendar.windows r = [] ∧ look t.calendar.flex r = []) ∧ t.guests = [] ∧
  t.walker.workList = [] ∧ t.walker.item = none ∧ (∀ r : Ride, look t.walker.displacing r = 0) ∧
  (∀ r : Ride, look t.tallies r = { posted := if (look s.rideTable r).enabled then .closed else .off }) ∧
  (∀ r : Ride, look t.rides r = { state := if (look s.rideTable r).enabled then .closed else .off }) ∧
  t.engine.heldList = [] ∧ t.engine.kiosk = [] ∧ t.engine.remote = [] ∧ t.engine.lastQueue = none ∧ t.engine.run = 0

/-- R15: what the day-close action keeps. -/
def dayCloseKeeps (s t : State) : Prop :=
  t.readers = s.readers ∧ t.rideTable = s.rideTable ∧ t.calendar.profiles = s.calendar.profiles ∧
  t.boardTable = s.boardTable ∧ t.day.park = s.day.park ∧ t.day.enableSet = s.day.enableSet ∧
  t.day.clock = s.day.clock ∧ t.day.check = s.day.check ∧ t.management = s.management ∧ t.boards = s.boards ∧
  t.heldValues = s.heldValues ∧ t.monitors = s.monitors ∧ t.fieldIntake = s.fieldIntake ∧
  t.mgmtIntake = s.mgmtIntake ∧ t.admission = s.admission ∧ t.nodeAddress = s.nodeAddress ∧
  t.walker.waiting = s.walker.waiting ∧ t.day.due = s.day.due ∧ t.pending = s.pending ∧ t.resetLow = s.resetLow

/-- R1, R15, R147: what a close hands over: PHASE_CHANGED and the posted values that change. -/
def closeHandsOver (s t : State) : Prop :=
  t.out = { s.out with
    flags := s.out.flags ++ [.phaseChanged]
    posted := s.out.posted ++
      ((indices 48).filter fun r => (look s.tallies r).posted ≠ (look t.tallies r).posted).map fun r =>
        (r, (look t.tallies r).posted) }

/-- R15: the PHASE_CLOSED replies of a close: to the held list, the kiosk queue and the remote queue, in that order. -/
def closeReplies (s : State) : List (Port × PartFrame) :=
  (s.engine.heldList.map HeldEntry.request ++ s.engine.kiosk ++ s.engine.remote).map fun q =>
    (q.port, ⟨q.source, .passReply q.tag .phaseClosed⟩)

/-- R14, R15: the day closed: emptied, the rest kept, the changes handed over, and the PHASE_CLOSED replies written as
far as there is room, behind a reply that the Pass Engine already waits with (log 12). -/
def dayClosed (s t : State) : Prop :=
  dayEmptied s t ∧ dayCloseKeeps s t ∧ closeHandsOver s t ∧
  t.engine.outbox = (send .passEngine s.engine.outbox (closeReplies s) s).2 ∧
  t.fieldPort = (send .passEngine s.engine.outbox (closeReplies s) s).1.fieldPort ∧
  t.trunkPort = (send .passEngine s.engine.outbox (closeReplies s) s).1.trunkPort

/-! ## Places of a statement's command -/

/-- A management command stands at the head of the intake and can be served (R184). -/
def mgmtHead (s : State) (e : MgmtEntry) (rest : List MgmtEntry) : Prop :=
  s.resetLow = false ∧ s.management.outbox = [] ∧ s.management.softReset = .none ∧ s.mgmtIntake = e :: rest

/-- An acted frame stands at the head of the field intake and can be delivered (R97). -/
def fieldHead (s : State) (e : FieldEntry) (rest : List FieldEntry) : Prop :=
  s.resetLow = false ∧ s.admission.outbox = [] ∧ s.fieldIntake = e :: rest

/-- A request stands at the head of the queue the arbiter picks, with no reply waiting and no held entry servable
(R80, R81). -/
def requestHead (s : State) (o : Origin) (q : Request) (rest : List Request) : Prop :=
  s.resetLow = false ∧ s.engine.outbox = [] ∧ (∀ e ∈ s.engine.heldList, e.servable = false) ∧
    pickQueue s = some o ∧ queueOfPort s (portOfOrigin o) = q :: rest

/-- A boundary of the present second is to be taken (R2). -/
def boundaryDue (s : State) (b : Boundary) : Prop := s.resetLow = false ∧ b ∈ s.day.due

/-- The state without a boundary of the present second. -/
def withoutDue (s : State) (b : Boundary) : State := { s with day := { s.day with due := s.day.due.erase b } }

/-- The command that takes a boundary. -/
def boundaryCommand : Boundary → Instr
  | .openMinute => .openMinuteBoundary
  | .lastCall => .lastCallBoundary
  | .earlyRedemption r k => .earlyRedemptionTime r k
  | .windowEnd r k => .windowEnd r k
  | .closing r k => .closingTime r k
  | .historyRotation => .dispatchHistoryRotation
  | .postingTick => .postingTick
  | .gapExpiry r => .gapTimerExpiry r
  | .holdExpiry => .holdExpiry
  | .spacingEnd b => .boardSpacingEnd b
  | .refresh b => .boardRefresh b

/-- Commands taken one after the other lead from `s` to `t`. -/
def runs : List Instr → State → State → Prop
  | [], s, t => t = s
  | c :: cs, s, t => ∃ u, exec c s = .next u ∧ runs cs u t

/-- A boundary that is due is taken as its command takes it: the hold expiry by a HOLD_EXPIRY for each place of the held list
(R80, R89), any other boundary by its one command. -/
def boundaryTaken (b : Boundary) (s t : State) : Prop :=
  if b = .holdExpiry then runs (List.replicate 8 .holdExpiry) (withoutDue s .holdExpiry) t
  else exec (boundaryCommand b) s = .next t

/-- The state with flag settings handed to the Management Unit (R190). -/
def flagged (s : State) (fs : List Flag) : State := { s with out := { s.out with flags := s.out.flags ++ fs } }

/-- R24, R25, R27: a ride enters a state from another one. Its timer restarts on entering UP and stops otherwise,
RIDE_DOWN or RIDE_SUSPECT is set, and the state is handed on. -/
def rideEnters (s : State) (r : Ride) (st : RideState) : State :=
  let x := look s.rides r
  let g := (look s.rideTable r).gapLimit
  let timer : GapTimer := if st = .up ∧ g ≠ 0 then ⟨true, g, 0⟩ else { x.timer with running := false }
  let fs : List Flag := if st = .down then [.rideDown] else if st = .suspect then [.rideSuspect] else []
  { s with
    rides := put s.rides r { x with state := st, timer := timer }
    out := { s.out with
      flags := s.out.flags ++ fs
      calendarStates := s.out.calendarStates ++ [(r, st)]
      tallyStates := s.out.tallyStates ++ [(r, st)]
      boardStates := s.out.boardStates ++ [r] } }

/-- R175, R179: a held value takes a value; if that changes it, the change reaches the boards whose range has the ride,
those of `order` first. -/
def heldValueSet (r : Ride) (v : Posted) (order : List BoardIx) (s : State) : State :=
  if look s.heldValues r = v then s
  else boardsChanged order (fun b => inRange (look s.boardTable b) r) { s with heldValues := put s.heldValues r v }

/-! ## The judging of a request (R50, R64, R86) -/

/-- R64, R86: the first check that fails for a listed ride, with the ride that the reason belongs to. -/
def rideReason (s : State) (c : Credential) (l : Label) : Option (Option Ride × Reason) :=
  match rideByLabel s l with
  | none => some (none, .unknownRide)
  | some r =>
    match (look s.rides r).state with
    | .suspect => some (some r, .ridePaused)
    | .down => some (some r, .rideDown)
    | .closed => some (some r, .rideClosed)
    | .off => some (some r, .unknownRide)
    | .up =>
      match guestOf c s.guests with
      | none => if 65536 ≤ s.guests.length then some (some r, .tableFull) else none
      | some g =>
        if g.passes.any fun p => decide (p.ride = r) then some (some r, .duplicate)
        else if s.day.park.passesPerGuest ≤ g.passes.length then some (some r, .limit)
        else none

/-- R50: a window meets every condition of a grant claim. -/
def grantsTo (s : State) (r : Ride) (party : Nat) (earliest latest : Option Nat) (w : Window) : Prop :=
  w.state = .future ∧ minuteNow s + (look s.calendar.profiles (look s.rideTable r).profile).lead ≤ w.start ∧
    (∀ e, earliest = some e → e ≤ w.start) ∧ (∀ l, latest = some l → w.start ≤ l) ∧ w.booked + party ≤ w.limit

/-- R92: the reason of a listed ride of which the windows are searched: that of R86, or SOLD_OUT. -/
def searchReason (s : State) (c : Credential) (party : Nat) (earliest latest : Option Nat) (l : Label) :
    Option (Option Ride × Reason) :=
  match rideReason s c l with
  | some x => some x
  | none =>
    match rideByLabel s l with
    | none => none
    | some r =>
      if (look s.calendar.windows r).any fun w => grantable (minuteNow s) (rideProfile s r).lead party earliest latest w
      then none else some (some r, .soldOut)

/-! ## Layouts (R199, R203) -/

/-- R199: a number in a width of bytes, most significant byte first. -/
def bigEndian (width value : Nat) : List Byte :=
  (List.range width).map fun i => BitVec.ofNat 8 (value / 256 ^ (width - 1 - i))

/-- Items one behind another, each a width in bytes and a value. -/
def laidOut (items : List (Nat × Nat)) : List Byte := items.flatMap fun x => bigEndian x.1 x.2

/-- R199, R203: an item that may be none, sent as all ones of its width. -/
def noneOr (width : Nat) (v : Option Nat) : Nat × Nat := (width, v.getD (256 ^ width - 1))

/-- R203: a yes or on item is sent as 1, a no or off item as 0. -/
def yesOr (b : Bool) : Nat × Nat := (1, if b then 1 else 0)

/-- R203: a posted value: its status, coded 1 WAIT, 2 OVER, 3 PAUSED, 4 DOWN, 5 CLOSED, 6 OFF, and its minutes, 0 unless
WAIT. -/
def postedItems : Posted → List (Nat × Nat)
  | .wait m => [(1, 1), (1, m)]
  | .over => [(1, 2), (1, 0)]
  | .paused => [(1, 3), (1, 0)]
  | .down => [(1, 4), (1, 0)]
  | .closed => [(1, 5), (1, 0)]
  | .off => [(1, 6), (1, 0)]

/-- R203: an attribute in a STATUS_READ reply. -/
def attributeItems (a : AttributeRecord) (threshold : Nat) : List (Nat × Nat) :=
  [noneOr 1 a.current, noneOr 1 a.worst, (1, threshold), yesOr a.exceeded, (2, a.exceedCount)]

/-- R196, R197: a frame the part originates, on the wire: Ethernet broadcast, the source 02-5A-38-24 and the node address, the
type, the header with a kind code, the body, and zero bytes up to 60 bytes. -/
def frameOf (node dst : Addr) (code : Nat) (body : List Byte) : Frame :=
  laidOut [(6, 0xFFFFFFFFFFFF), (4, 0x025A3824), (2, node.toNat), (2, 0x88B6), (1, 1), (1, code), (2, body.length),
    (2, dst.toNat), (2, node.toNat)] ++ body ++ List.replicate (60 - (22 + body.length)) 0

/-- R198: the kind codes. -/
def kindCodes : List (Nat × Kind) :=
  [(0x01, .tap), (0x02, .verdict), (0x03, .dispatch), (0x04, .rideStatus), (0x10, .passRequest), (0x11, .passCancel),
   (0x12, .passList), (0x13, .passReply), (0x14, .passChange), (0x20, .boardFrame), (0x21, .notice),
   (0x30, .mgmtCommand), (0x31, .mgmtReply)]

/-- R203: the length of the reply fields of a MGMT_REPLY of DONE to the command with a code. A STATUS_READ reply has that of
one of its sections. -/
def replyFieldsFit (code : Nat) (fields : List Byte) : Prop :=
  (code = 0x01 → fields.length ∈ [49, 47, 3]) ∧ (code = 0x02 → 3 ∣ fields.length) ∧
  (code = 0x0D → fields.length = 1 + 43 * num1 fields 0) ∧ (code = 0x0E → fields.length = 7 + 23 * num1 fields 0) ∧
  (code = 0x0F → fields.length = 10 + 13 * num1 fields 6) ∧ (code = 0x10 → fields.length = 4) ∧
  (code ∉ [0x01, 0x02, 0x0D, 0x0E, 0x0F, 0x10] → fields = [])

/-- R198, R200, R201: the lengths that the layout of a kind gives for the counts and codes that a body carries (what a received
MGMT_REPLY and a PASS_REPLY of another result may be: log 19). -/
def fitsLayout (k : Kind) (body : List Byte) : Prop :=
  match k with
  | .tap => body.length = 10
  | .verdict => body.length = 8
  | .dispatch => body.length = 2
  | .rideStatus => body.length = 2
  | .passRequest => body.length = 16 + 2 * num1 body 7
  | .passCancel => body.length = 10
  | .passList => body.length = 10
  | .passReply =>
    (num1 body 0 = 1 ∧ body.length = 12 + num1 body 1) ∨ (num1 body 0 = 2 ∧ body.length = 4 + num1 body 1) ∨
      (num1 body 0 = 7 ∧ body.length = 4 + 8 * num1 body 1) ∨ (num1 body 0 = 8 ∧ body.length = 10) ∨
      (num1 body 0 ∉ [1, 2, 7, 8] ∧ body.length = 4)
  | .passChange => body.length = 18
  | .boardFrame => body.length = 2 + 4 * num1 body 1
  | .notice => body.length = 4
  | .mgmtCommand => ∃ width, body.length = 4 + width ∧ (num1 body 0, width) ∈
      [(0x01, 2), (0x02, 4 + num1 body 7), (0x03, 4 + 3 * num1 body 7), (0x04, 0), (0x05, 1), (0x06, 0), (0x07, 3), (0x08, 1),
       (0x09, 2), (0x0A, 2), (0x0B, 4), (0x0C, 2), (0x0D, 2), (0x0E, 3), (0x0F, 7), (0x10, 7), (0x11, 0)]
  | .mgmtReply =>
    (num1 body 1 ≠ 1 ∧ body.length = 6) ∨
      (num1 body 1 = 1 ∧ 6 ≤ body.length ∧ replyFieldsFit (num1 body 0) (body.drop 6))

/-! ## The Classifier -/

/-- The Classifier of a port can take the frame at the head of its receive buffer (R161, R172). -/
def classifierHead (s : State) (p : Port) (f : Frame) (rest : List Frame) : Prop :=
  s.resetLow = false ∧ (portOf s p).heldRequest = none ∧ (portOf s p).receiveBuffer = f :: rest

/-- The state with a receive buffer in place of a port's own. -/
def withReceiveBuffer (s : State) (p : Port) (fs : List Frame) : State :=
  setPort s p { portOf s p with receiveBuffer := fs }

/-- R162: a queue-net frame that is sorted by its port's rules: well-formed, to one address, from an address. -/
def sortable (f : Frame) (dst src : Addr) (k : Kind) (body : List Byte) : Prop :=
  examine f = .queueNet dst src k body ∧ dst ≠ 0xFFFF ∧ src ≠ 0 ∧ src ≠ 0xFFFF

/-- R163: the claim modes under which a TAP enters the field intake. -/
def actedUnder : ClaimMode → Option ActedMode
  | .forward => none
  | .observe => some .observe
  | .own => some .own
  | .ownCopy => some .ownCopy

/-- R167, R170: a frame sorted into the field intake (as `body`, if given) and to the relay of the TRUNK port (if
`relayed`), with the flags of what is full. -/
def sortedOnField (s : State) (f : Frame) (src : Addr) (body : Option FieldBody) (relayed : Bool) : State :=
  let room := decide (s.fieldIntake.length < 256)
  let lane := decide (s.trunkPort.relayQueue.length < 128)
  let entries : List FieldEntry := body.toList.map fun b => ⟨src, s.day.clock, b⟩
  let intake := if room then s.fieldIntake ++ entries else s.fieldIntake
  let queue := if relayed && lane then s.trunkPort.relayQueue ++ [f] else s.trunkPort.relayQueue
  let lost : List Flag := if body.isSome && !room then [.intakeOverflow] else []
  let dropped : List Flag := if relayed && !lane then [.relayDrop] else []
  flagged { s with fieldIntake := intake, trunkPort := { s.trunkPort with relayQueue := queue } } (lost ++ dropped)

end Sys2Proof.Machine
end

