-- ==== Sys2Proof/Certificates/Slice0/Obligations.lean ====
section
/-! DEFINITION. The statements about the part, for the provers. Each is a proposition; none is proved here. -/

open Sys2Proof
open Sys2Proof.Machine

/-! ## The machine -/

/-- Step runs the command at the front of the queue on the state with the queue's rest; on an empty queue the part
idles (log 2). -/
def Obligations.StepRunsFrontCommand : Prop :=
  (∀ (c : Instr) (rest : List Instr) (s : State), s.pending = c :: rest → step s = exec c { s with pending := rest }) ∧
    ∀ s : State, s.pending = [] → step s = .next s

/-- Every command answers a next state, and leaves the queue of commands as it is. -/
def Obligations.EveryCommandCompletes : Prop :=
  ∀ (c : Instr) (s : State), ∃ t, exec c s = .next t ∧ t.pending = s.pending

/-! ## Pins and resets -/

/-- RESET_N going low puts every block at its value of a line reset, with the phase NIGHT, the clock UNSET and no frame in
transmission (R2, R161, R195); the release then samples the strap pins, so that the two are one line reset (log 9). A link
report is kept, and one of a link gone down leaves a frame in transmission running (log 8).
While RESET_N is asserted only power-on, the release of RESET_N, its assertion and a link report act (R161, R195;
that the other blocks stand still as well is log 9, that a link report is kept then is log 8). -/
def Obligations.PinsAct : Prop :=
  (∀ s : State,
     (∃ t u, exec .resetNAsserted s = .next t ∧ exec (.lineReset s.nodeAddress) s = .next u ∧
       t = { u with resetLow := true } ∧ t.day.phase = .night ∧ t.day.clock = none ∧
       t.fieldPort.transmitting = none ∧ t.trunkPort.transmitting = none ∧
       ∀ a, exec (.lineReset a) t = exec (.lineReset a) s) ∧
     (∀ up, exec (.linkStateChange .field up) s = .next { s with fieldPort := { s.fieldPort with linkUp := up } }) ∧
     ∀ up, exec (.linkStateChange .trunk up) s = .next { s with trunkPort := { s.trunkPort with linkUp := up } }) ∧
  (∀ (c : Instr) (s : State), s.resetLow = true → (∀ a, c ≠ .powerOn a) → (∀ a, c ≠ .lineReset a) →
     (∀ p up, c ≠ .linkStateChange p up) → c ≠ .resetNAsserted → exec c s = .next s)

/-- The power-on values of the blocks, and POWER_ON, which brings them about with the strapped node address. That POWER_ON
keeps the last report of each link is log 8, that it drops every outstanding hand-off is log 3, and that it leaves RESET_N
not asserted is log 34: choices of the model. -/
def Obligations.PowerOnValues : Prop :=
  (∀ (a : Addr) (s : State), exec (.powerOn a) s = .next { State.reset with
      pending := s.pending
      nodeAddress := a
      fieldPort := { State.reset.fieldPort with linkUp := s.fieldPort.linkUp }
      trunkPort := { State.reset.trunkPort with linkUp := s.trunkPort.linkUp } }) ∧
  State.reset.day.phase = .night ∧ State.reset.day.clock = none ∧
  State.reset.day.check = ⟨.none, none, none, 0, 0⟩ ∧
  State.reset.day.park = ⟨2, 540, 1320, .share, 4, 5, 0, 0⟩ ∧ State.reset.day.enableSet = 0 ∧
  (∀ r, look State.reset.rideTable r =
    { label := 0, enabled := false, controllerAddress := 0, profile := 0,
      written := ⟨0, 0, 0, 0, 0, 100, 0, 0, 0⟩, inEffect := ⟨0, 0, 0, 0, 0, 100, 0, 0, 0⟩,
      displacePolicy := .shift, gapLimit := 0, postingCurve := .exact, controllerRelay := false }) ∧
  (∀ r, (look State.reset.rides r).state = .off ∧ (look State.reset.rides r).timer.running = false ∧
    (look State.reset.rides r).credit = 0) ∧
  (∀ p, look State.reset.calendar.profiles p = ⟨0, 0, 0, 0, 0, 0⟩) ∧
  (∀ r, look State.reset.calendar.windows r = [] ∧ look State.reset.calendar.flex r = []) ∧ State.reset.guests = [] ∧
  State.reset.engine.kiosk = [] ∧ State.reset.engine.remote = [] ∧ State.reset.engine.heldList = [] ∧
  State.reset.engine.lastQueue = none ∧ State.reset.engine.run = 0 ∧ State.reset.engine.outbox = [] ∧
  State.reset.walker.workList = [] ∧ State.reset.walker.item = none ∧ State.reset.walker.waiting = none ∧
  State.reset.walker.abandoned = false ∧ (∀ r, look State.reset.walker.displacing r = 0) ∧
  State.reset.admission.outbox = [] ∧
  (∀ r, look State.reset.tallies r =
    { marks := [], saturated := false, buckets := List.replicate 15 0, newestMinute := 0, lastObserved := none,
      estimate := 0, posted := .off }) ∧
  (∀ r, look State.reset.monitors r =
    { buckets := List.replicate 16 ⟨0, 0⟩, newestMinute := 0, throughput := ⟨none, none, false, 0⟩,
      noShow := ⟨none, none, false, 0⟩, mergeLoad := ⟨none, none, false, 0⟩, derate := 100, overbook := 0,
      throttle := 0, evaluations := 0, lastEvaluation := none }) ∧
  (∀ i, look State.reset.readers i =
    { address := 0, ride := 0, role := .standbyEntry, claimMode := .forward, used := false }) ∧
  (∀ b, look State.reset.boardTable b = ⟨0, 0, 1, 30, 0⟩) ∧
  (∀ b, look State.reset.boards b = ⟨.blank, none, none, none, 0, false, false⟩) ∧
  (∀ r, look State.reset.heldValues r = .off) ∧
  State.reset.management.flags = 0 ∧ State.reset.management.hold = false ∧ State.reset.management.outbox = [] ∧
  (∀ r, look State.reset.management.counts r = ⟨0, 0, 0, 0, 0, 0, 0, 0, 0, 0, 0, 0⟩) ∧
  State.reset.management.softReset = .none ∧ State.reset.day.due = [] ∧ State.reset.resetLow = false ∧
  State.reset.fieldIntake = [] ∧ State.reset.mgmtIntake = [] ∧
  (∀ p, (portOf State.reset p).receiveBuffer = [] ∧ (portOf State.reset p).relayQueue = [] ∧
    (portOf State.reset p).partQueue = [] ∧ (portOf State.reset p).waiters = [] ∧
    (portOf State.reset p).heldRequest = none ∧ (portOf State.reset p).fullReply = none ∧
    (portOf State.reset p).nextPreference = .relay ∧ (portOf State.reset p).transmitting = none) ∧
  State.reset.out =
    { flags := [], credits := [], standbys := [], dispatches := [], records := [], evaluations := [],
      recomputations := [], calendarStates := [], tallyStates := [], boardStates := [], posted := [], workItems := [],
      displacementEnds := [], lastCalls := 0 }

/-- A line reset keeps the loaded tables, the park settings but for NOTICE_TARGET and the enable set, and the boards'
held values; everything else takes its power-on value, with enabled rides CLOSED. Posted values that change are handed
to the Board Composer behind those not yet taken (log 3). That the last report of each link is kept is log 8, and that a
LINE_RESET without an assertion before it stands for the whole pulse is log 9. -/
def Obligations.LineResetState : Prop :=
  ∀ (a : Addr) (s : State), ∃ t, exec (.lineReset a) s = .next t ∧
    t.nodeAddress = a ∧ t.resetLow = false ∧ t.readers = s.readers ∧ t.rideTable = s.rideTable ∧
    t.boardTable = s.boardTable ∧ t.heldValues = s.heldValues ∧
    t.day = { State.reset.day with park := { s.day.park with noticeTarget := 0 } } ∧
    t.fieldPort = { State.reset.fieldPort with linkUp := s.fieldPort.linkUp } ∧
    t.trunkPort = { State.reset.trunkPort with linkUp := s.trunkPort.linkUp } ∧
    t.fieldIntake = [] ∧ t.mgmtIntake = [] ∧ t.calendar = { State.reset.calendar with profiles := s.calendar.profiles } ∧
    t.guests = [] ∧ t.engine = State.reset.engine ∧ t.admission = State.reset.admission ∧
    t.walker = State.reset.walker ∧ t.monitors = State.reset.monitors ∧ t.boards = State.reset.boards ∧
    t.management = State.reset.management ∧
    (∀ r, look t.rides r =
      { look State.reset.rides r with state := if (look s.rideTable r).enabled then .closed else .off }) ∧
    (∀ r, look t.tallies r =
      { look State.reset.tallies r with posted := if (look s.rideTable r).enabled then .closed else .off }) ∧
    t.out = { State.reset.out with posted := s.out.posted ++
      ((indices 48).filter fun r => (look s.tallies r).posted ≠ (look t.tallies r).posted).map fun r =>
        (r, (look t.tallies r).posted) }

/-- When a soft reset acts, each block takes its soft-reset value; tables, settings, clock, counts and board contents
are kept; outstanding hand-offs stay to be taken (log 3). Before its reply has left the TRUNK port it does not act: the command
changes nothing (log 1).
R194: SOFT_RESET is answered DONE in every phase, and the Management Unit serves no further command until the reset has
acted. -/
def Obligations.SoftReset : Prop :=
  (∀ s : State, s.resetLow = false →
     (s.management.softReset ≠ .due → exec .softResetAction s = .next s) ∧
     (s.management.softReset = .due → ∃ t, exec .softResetAction s = .next t ∧
       t.nodeAddress = s.nodeAddress ∧ t.resetLow = false ∧ t.readers = s.readers ∧ t.rideTable = s.rideTable ∧
       t.boardTable = s.boardTable ∧ t.heldValues = s.heldValues ∧
       t.day = { s.day with
         phase := .night
         check := if s.day.phase = .checking then { s.day.check with outcome := .aborted } else s.day.check } ∧
       t.fieldPort = { State.reset.fieldPort with
         linkUp := s.fieldPort.linkUp, transmitting := s.fieldPort.transmitting } ∧
       t.trunkPort = { State.reset.trunkPort with
         linkUp := s.trunkPort.linkUp, transmitting := s.trunkPort.transmitting } ∧
       t.fieldIntake = [] ∧ t.mgmtIntake = [] ∧
       t.calendar = { State.reset.calendar with profiles := s.calendar.profiles } ∧ t.guests = [] ∧
       t.engine = State.reset.engine ∧ t.admission = State.reset.admission ∧ t.walker = State.reset.walker ∧
       t.monitors = State.reset.monitors ∧
       (∀ b, look t.boards b = { look s.boards b with pending := false, deferred := false }) ∧
       t.management = { s.management with flags := 0, hold := false, outbox := [], softReset := .none } ∧
       (∀ r, look t.rides r =
         { look State.reset.rides r with state := if (look s.rideTable r).enabled then .closed else .off }) ∧
       (∀ r, look t.tallies r =
         { look State.reset.tallies r with posted := if (look s.rideTable r).enabled then .closed else .off }) ∧
       t.out = { s.out with posted := s.out.posted ++
         ((indices 48).filter fun r => (look s.tallies r).posted ≠ (look t.tallies r).posted).map fun r =>
           (r, (look t.tallies r).posted) })) ∧
  (∀ (e : MgmtEntry) (rest : List MgmtEntry) (s : State), mgmtHead s e rest → e.command = .softReset →
     exec .softReset s = .next (mgmtFinish [mgmtReply e 0x11 { result := .done }]
       { s with mgmtIntake := rest, management := { s.management with softReset := .replyPending } }) ∧
     ∀ t : State, t.management.softReset ≠ .none →
       ∀ c ∈ [Instr.statusReadPart, .statusReadRide, .statusReadBoard, .tableRead, .tableWrite [], .dayOpen, .phaseSet,
         .dayClose, .clockSet, .clockTrim [], .rideOverride, .boardMode, .noticeSet, .noticeClear, .countsRead,
         .calendarRead, .guestReadExact, .guestReadNext, .passRevoke, .softReset], exec c t = .next t)

/-! ## The ports -/

/-- Reception: a good, whole frame of at least 64 bytes with its check sequence joins the receive buffer, or is
dropped with RELAY_DROP when the buffer holds 16 frames; any other frame is discarded.
The egress arbiter: an idle port with its link up sends the head of its only non-empty queue, or of the queue that
the next preference names, which then becomes the other; otherwise nothing starts. A transmission that ends frees the
port; the end of a SOFT_RESET's reply makes the soft reset due. That the commands change nothing where nothing starts and where
no transmission ends is log 1,
that a frame is received whatever the link report is is log 8, and that there is no greatest length is log 10. -/
def Obligations.ReceptionAndEgress : Prop :=
  (∀ (p : Port) (f : RxFrame) (s : State), s.resetLow = false →
     (f.goodCheck = true → f.whole = true → 60 ≤ f.bytes.length →
       ((portOf s p).receiveBuffer.length < 16 →
         exec (.frameReceived p f) s = .next (withReceiveBuffer s p ((portOf s p).receiveBuffer ++ [f.bytes]))) ∧
       (16 ≤ (portOf s p).receiveBuffer.length → exec (.frameReceived p f) s = .next (flagged s [.relayDrop]))) ∧
     (f.goodCheck = false ∨ f.whole = false ∨ f.bytes.length < 60 → exec (.frameReceived p f) s = .next s)) ∧
  (∀ (p : Port) (s : State), s.resetLow = false →
     (((portOf s p).linkUp = false ∨ (portOf s p).transmitting.isSome = true ∨
         ((portOf s p).relayQueue = [] ∧ (portOf s p).partQueue = [])) → exec (.transmissionStart p) s = .next s) ∧
     ((portOf s p).linkUp = true → (portOf s p).transmitting = none →
       (∀ f rest, (portOf s p).relayQueue = f :: rest →
         (portOf s p).partQueue = [] ∨ (portOf s p).nextPreference = .relay →
         exec (.transmissionStart p) s = .next (setPort s p { portOf s p with
           relayQueue := rest, transmitting := some f, nextPreference := .part })) ∧
       (∀ f rest, (portOf s p).partQueue = f :: rest →
         (portOf s p).relayQueue = [] ∨ (portOf s p).nextPreference = .part →
         exec (.transmissionStart p) s = .next { setPort s p { portOf s p with
             partQueue := rest, transmitting := some (wireBytes s.nodeAddress f), nextPreference := .relay } with
           management := { s.management with softReset :=
             if p = .trunk ∧ isSoftResetReply f = true ∧ s.management.softReset = .replyPending then .replySending
             else s.management.softReset } })) ∧
     ((portOf s p).transmitting = none → exec (.transmissionEnd p) s = .next s) ∧
     ((portOf s p).transmitting.isSome = true →
       exec (.transmissionEnd p) s = .next { setPort s p { portOf s p with transmitting := none } with
         management := { s.management with softReset :=
           if p = .trunk ∧ s.management.softReset = .replySending then .due else s.management.softReset } }))

/-- The Classifier relays what is not queue-net, what goes to the broadcast address and what comes from the address 0 or
the broadcast address; it drops a malformed frame with BAD_MESSAGE; a full relay queue drops with RELAY_DROP; and while
it holds a request it takes no frame, and the command changes nothing (log 1). A well-formed frame of any kind at the TRUNK
port that is not addressed to the part is relayed to FIELD. -/
def Obligations.ClassifierRelaysAndDrops : Prop :=
  ∀ (p : Port) (s : State),
    ((portOf s p).heldRequest.isSome = true → exec (.classifyFrame p) s = .next s) ∧
    ∀ (f : Frame) (rest : List Frame), classifierHead s p f rest →
      (examine f = .malformed →
        exec (.classifyFrame p) s = .next (flagged (withReceiveBuffer s p rest) [.badMessage])) ∧
      (examine f = .foreign ∨ (∃ dst src k body, examine f = .queueNet dst src k body ∧
          (dst = 0xFFFF ∨ src = 0 ∨ src = 0xFFFF)) ∨
          (p = .trunk ∧ ∃ dst src k body, sortable f dst src k body ∧ (s.nodeAddress = 0 ∨ dst ≠ s.nodeAddress)) →
        ((portOf s (otherPort p)).relayQueue.length < 128 →
          exec (.classifyFrame p) s = .next (setPort (withReceiveBuffer s p rest) (otherPort p)
            { portOf s (otherPort p) with relayQueue := (portOf s (otherPort p)).relayQueue ++ [f] })) ∧
        (128 ≤ (portOf s (otherPort p)).relayQueue.length →
          exec (.classifyFrame p) s = .next (flagged (withReceiveBuffer s p rest) [.relayDrop])))

/-- FIELD: a TAP of a used reader goes by its claim mode, a controller's DISPATCH or RIDE_STATUS goes to the field intake
and is relayed under CONTROLLER_RELAY, and a frame of neither kind is relayed. The lookups read the tables as they stand, in
NIGHT too (log 42). -/
def Obligations.FieldSorting : Prop :=
  ∀ (f : Frame) (rest : List Frame) (dst src : Addr) (k : Kind) (body : List Byte) (s : State),
    classifierHead s .field f rest → sortable f dst src k body → ¬(s.nodeAddress ≠ 0 ∧ dst = s.nodeAddress) →
    let s1 := withReceiveBuffer s .field rest
    (∀ i, k = .tap → readerByAddress s src = some i →
      exec (.classifyFrame .field) s = .next (sortedOnField s1 f src
        ((actedUnder (look s.readers i).claimMode).map fun m => .tap i m (cred6 body 0) (num1 body 6) (word2 body 8))
        (decide ((look s.readers i).claimMode ≠ .own)))) ∧
    (∀ r, k = .dispatch → rideByController s src = some r →
      exec (.classifyFrame .field) s = .next (sortedOnField s1 f src (some (.dispatch (num1 body 0)))
        (look s.rideTable r).controllerRelay)) ∧
    (∀ r, k = .rideStatus → rideByController s src = some r →
      exec (.classifyFrame .field) s = .next (sortedOnField s1 f src (some (.rideStatus (num1 body 0)))
        (look s.rideTable r).controllerRelay)) ∧
    ((k = .tap ∧ readerByAddress s src = none) ∨
        ((k = .dispatch ∨ k = .rideStatus) ∧ rideByController s src = none) ∨
        k ∉ [.tap, .dispatch, .rideStatus, .mgmtCommand] →
      exec (.classifyFrame .field) s = .next (sortedOnField s1 f src none true)) ∧
    (k = .mgmtCommand → exec (.classifyFrame .field) s = .next (flagged s1 [.badMessage]))

/-- Frames addressed to the part: a request joins its queue, or is answered QUEUE_FULL, or is held by the Classifier while
a QUEUE_FULL waits; a management command from the TRUNK joins the management intake or sets INTAKE_OVERFLOW; any other
kind sets BAD_MESSAGE. That the places of the producers that wait are taken off the room is log 11. -/
def Obligations.AddressedFrames : Prop :=
  ∀ (p : Port) (f : Frame) (rest : List Frame) (dst src : Addr) (k : Kind) (body : List Byte) (s : State),
    classifierHead s p f rest → sortable f dst src k body → s.nodeAddress ≠ 0 → dst = s.nodeAddress →
    let s1 := withReceiveBuffer s p rest
    (∀ q, requestOf p src k body = some q →
      ((portOf s p).fullReply.isSome = true →
        exec (.classifyFrame p) s = .next (setPort s1 p { portOf s1 p with heldRequest := some q })) ∧
      ((portOf s p).fullReply = none → (queueOfPort s p).length < (if p = .field then 32 else 64) →
        exec (.classifyFrame p) s = .next (setQueue p (queueOfPort s p ++ [q]) s1)) ∧
      ((portOf s p).fullReply = none → (if p = .field then 32 else 64) ≤ (queueOfPort s p).length →
        ((portOf s p).partQueue.length + (portOf s p).waiters.length < 128 →
          exec (.classifyFrame p) s = .next (setPort s1 p { portOf s1 p with
            partQueue := (portOf s p).partQueue ++ [⟨q.source, .passReply q.tag .queueFull⟩] })) ∧
        (128 ≤ (portOf s p).partQueue.length + (portOf s p).waiters.length →
          exec (.classifyFrame p) s = .next (setPort s1 p { portOf s1 p with
            waiters := (portOf s p).waiters ++ [.requestIntake]
            fullReply := some ⟨q.source, .passReply q.tag .queueFull⟩ })))) ∧
    (∀ e, p = .trunk → k = .mgmtCommand → entryOf src body = some e →
      (s.mgmtIntake.length < 16 →
        exec (.classifyFrame p) s = .next { s1 with mgmtIntake := s.mgmtIntake ++ [e] }) ∧
      (16 ≤ s.mgmtIntake.length → exec (.classifyFrame p) s = .next (flagged s1 [.intakeOverflow]))) ∧
    (requestOf p src k body = none → k ≠ .mgmtCommand ∨ p = .field →
      exec (.classifyFrame p) s = .next (flagged s1 [.badMessage]))

/-- R168: of the producers waiting on a part output queue, the one that began first has its turn as soon as the queue holds
fewer than 128 frames, and every other waits on. With its turn, the first frame that it waits with joins the tail of the
queue, and a single one leaves the producer waiting no longer. Without its turn it writes nothing: the command changes
nothing (log 1). For the Pass Engine the exact form is that of a held list without due expiries, for the Management Unit that
of no NOTICE being due. -/
def Obligations.WaitingFramesAreWritten : Prop :=
  ∀ (p : Port) (f : PartFrame) (rest : List (Port × PartFrame)) (s : State), s.resetLow = false →
    let queued := (portOf s p).partQueue ++ [f]
    (∀ who, hasTurn (portOf s p) who = true ↔
      (portOf s p).waiters.head? = some who ∧ (portOf s p).partQueue.length < 128) ∧
    (s.admission.outbox = (p, f) :: rest → hasTurn (portOf s p) .admission = false → exec .verdictWrite s = .next s) ∧
    (s.engine.outbox = (p, f) :: rest → hasTurn (portOf s p) .passEngine = false → exec .passReplyWrite s = .next s) ∧
    (s.management.outbox = (p, f) :: rest → hasTurn (portOf s p) .management = false →
      exec .mgmtReplyWrite s = .next s ∧ exec .noticeWrite s = .next s) ∧
    ((portOf s p).fullReply = some f → hasTurn (portOf s p) .requestIntake = false →
      exec (.queueFullWrite p) s = .next s) ∧
    (s.walker.waiting = some f → hasTurn s.trunkPort .walker = false → exec .passChangeWrite s = .next s) ∧
    (s.admission.outbox = (p, f) :: rest → hasTurn (portOf s p) .admission = true →
      (∃ t, exec .verdictWrite s = .next t ∧ queued <+: (portOf t p).partQueue) ∧
      (rest = [] → exec .verdictWrite s = .next { setPort s p { portOf s p with
        partQueue := queued, waiters := (portOf s p).waiters.erase .admission } with admission := { outbox := [] } })) ∧
    (s.engine.outbox = (p, f) :: rest → hasTurn (portOf s p) .passEngine = true →
      (∃ t, exec .passReplyWrite s = .next t ∧ queued <+: (portOf t p).partQueue) ∧
      (rest = [] → (∀ e ∈ s.engine.heldList, e.expiring = false) →
        exec .passReplyWrite s = .next { setPort s p { portOf s p with
          partQueue := queued, waiters := (portOf s p).waiters.erase .passEngine } with
          engine := { s.engine with outbox := [] } })) ∧
    (s.management.outbox = (p, f) :: rest → hasTurn (portOf s p) .management = true → isMgmtReply f = true →
      (∃ t, exec .mgmtReplyWrite s = .next t ∧ queued <+: (portOf t p).partQueue) ∧
      (rest = [] → noticeDue s = false → exec .mgmtReplyWrite s = .next { setPort s p { portOf s p with
        partQueue := queued, waiters := (portOf s p).waiters.erase .management } with
        management := { s.management with outbox := [] } })) ∧
    (s.management.outbox = (p, f) :: rest → hasTurn (portOf s p) .management = true → isMgmtReply f = false →
      (∃ t, exec .noticeWrite s = .next t ∧ queued <+: (portOf t p).partQueue) ∧
      (rest = [] → noticeDue s = false → exec .noticeWrite s = .next { setPort s p { portOf s p with
        partQueue := queued, waiters := (portOf s p).waiters.erase .management } with
        management := { s.management with outbox := [] } }))

/-- Room given to a request queue's intake: its QUEUE_FULL is written, and a request the Classifier holds joins the
queue if there is room and is answered QUEUE_FULL otherwise. Room given to the Walker: its PASS_CHANGE is written, and the
Walker goes on with its item, its list or, with WALK_IDLE, none. The room for the held request's reply is judged with the
waiting producers' places taken off (log 11); that a Walker whose day was closed while it waited becomes IDLE without
WALK_IDLE is log 14. -/
def Obligations.IntakeAndWalkerResume : Prop :=
  (∀ (p : Port) (f : PartFrame) (s : State), s.resetLow = false → (portOf s p).fullReply = some f →
    hasTurn (portOf s p) .requestIntake = true →
    let s1 := setPort s p { portOf s p with
      partQueue := (portOf s p).partQueue ++ [f]
      waiters := (portOf s p).waiters.erase .requestIntake
      fullReply := none
      heldRequest := none }
    ((portOf s p).heldRequest = none → exec (.queueFullWrite p) s = .next s1) ∧
    ∀ q, (portOf s p).heldRequest = some q →
      ((queueOfPort s q.port).length < (if q.port = .field then 32 else 64) →
        exec (.queueFullWrite p) s = .next (setQueue q.port (queueOfPort s q.port ++ [q]) s1)) ∧
      ((if q.port = .field then 32 else 64) ≤ (queueOfPort s q.port).length →
        ((portOf s1 q.port).partQueue.length + (portOf s1 q.port).waiters.length < 128 →
          exec (.queueFullWrite p) s = .next (setPort s1 q.port { portOf s1 q.port with
            partQueue := (portOf s1 q.port).partQueue ++ [⟨q.source, .passReply q.tag .queueFull⟩] })) ∧
        (128 ≤ (portOf s1 q.port).partQueue.length + (portOf s1 q.port).waiters.length →
          exec (.queueFullWrite p) s = .next (setPort s1 q.port { portOf s1 q.port with
            waiters := (portOf s1 q.port).waiters ++ [.requestIntake]
            fullReply := some ⟨q.source, .passReply q.tag .queueFull⟩ })))) ∧
  ∀ (f : PartFrame) (s : State), s.resetLow = false → s.walker.waiting = some f →
    hasTurn s.trunkPort .walker = true →
    let s1 : State := { s with
      trunkPort := { s.trunkPort with
        partQueue := s.trunkPort.partQueue ++ [f], waiters := s.trunkPort.waiters.erase .walker }
      walker := { s.walker with waiting := none, abandoned := false } }
    (s.walker.item.isSome = true → exec .passChangeWrite s = .next s1) ∧
    (s.walker.item = none → ∀ i is, s.walker.workList = i :: is →
      exec .passChangeWrite s = .next { s1 with walker := { s1.walker with workList := is, item := some i } }) ∧
    (s.walker.item = none → s.walker.workList = [] →
      exec .passChangeWrite s = .next (if s.walker.abandoned then s1 else flagged s1 [.walkIdle]))

/-! ## The clock and its boundaries -/

/-- A second passes: a set clock moves to the next second, across midnight to 00:00:00; running gap timers, hold timers
and board counts count it. From 23:59:59 in PREOPEN, OPEN or LAST_CALL it makes the midnight wrap, which closes the day
(R6; the order of its replies: log 12). Nothing else changes but the list of the second's boundaries (log 5). An UNSET
clock does not run. -/
def Obligations.ClockAdvance : Prop :=
  ∀ s : State, s.resetLow = false →
    (s.day.clock = none → exec .clockAdvance s = .next s) ∧
    ∀ n, s.day.clock = some n → s.day.due = [] → ∃ t u : State, exec .clockAdvance s = .next t ∧
      ((n + 1) % 86400 ≠ 0 ∨ inDay s.day.phase = false → t = { u with day := { u.day with due := t.day.due } }) ∧
      ((n + 1) % 86400 = 0 → inDay s.day.phase = true →
        ∃ v, dayClosed u v ∧ t = { v with day := { v.day with due := t.day.due } }) ∧
      u = { s with
        day := { s.day with clock := some ((n + 1) % 86400) }
        rides := u.rides
        engine := { s.engine with heldList := s.engine.heldList.map fun e =>
          if e.servable then e
          else { e with
            elapsed := e.elapsed + 1
            expiring := e.expiring || decide (s.day.park.holdLimit ≤ e.elapsed + 1) } }
        boards := u.boards } ∧
      (∀ r, look u.rides r = { look s.rides r with timer :=
        if (look s.rides r).timer.running = true then
          { (look s.rides r).timer with elapsed := (look s.rides r).timer.elapsed + 1 }
        else (look s.rides r).timer }) ∧
      ∀ b, look u.boards b = { look s.boards b with
        spacing := (look s.boards b).spacing.map fun c => min 120 (c + 1)
        refresh := min 120 ((look s.boards b).refresh + 1) }

/-- The boundaries that an advance brings: each kind is to be taken exactly at the seconds, or with the timers, that its
owner's rule names, in the state that the advance, with the midnight wrap, leaves. That they are noted and then taken one
by one is log 5. -/
def Obligations.BoundariesOfASecond : Prop :=
  ∀ (s t : State) (n : Nat), s.resetLow = false → s.day.clock.isSome = true → s.day.due = [] →
    exec .clockAdvance s = .next t → t.day.clock = some n →
    (.openMinute ∈ t.day.due ↔ n = 60 * s.day.park.openMinute) ∧
    (.lastCall ∈ t.day.due ↔ n = 60 * s.day.park.lastCallMinute) ∧
    (∀ r k, .earlyRedemption r k ∈ t.day.due ↔ ∃ w, windowOf t r k = some w ∧
      (rideProfile s r).early ≤ w.start ∧ n = 60 * (w.start - (rideProfile s r).early)) ∧
    (∀ r k, .windowEnd r k ∈ t.day.due ↔ ∃ w, windowOf t r k = some w ∧ n = 60 * w.stop) ∧
    (∀ r k, .closing r k ∈ t.day.due ↔ ∃ w, windowOf t r k = some w ∧ n = 60 * (w.stop + (rideProfile s r).late)) ∧
    (.historyRotation ∈ t.day.due ↔ n % 60 = 0) ∧
    (.postingTick ∈ t.day.due ↔ n % 60 = 0 ∨ n % 60 = 30) ∧
    (∀ r, .gapExpiry r ∈ t.day.due ↔ (look t.rides r).timer.running = true ∧
      (look t.rides r).timer.limit ≤ (look t.rides r).timer.elapsed) ∧
    (.holdExpiry ∈ t.day.due ↔ ∃ e ∈ t.engine.heldList, e.expiring = true) ∧
    (∀ b, .spacingEnd b ∈ t.day.due ↔ (look s.boards b).pending = true ∧ (look s.boards b).spacing = some 1) ∧
    ∀ b, .refresh b ∈ t.day.due ↔ (look s.boardTable b).address ≠ 0 ∧
      (look s.boardTable b).refreshPeriod ≤ min 120 ((look s.boards b).refresh + 1)

/-- The open-minute boundary opens PREOPEN, the last-call boundary takes PREOPEN and OPEN to LAST_CALL, with PHASE_CHANGED
and, for LAST_CALL, the hand-off to the Pass Engine; any other phase stays.
The midnight wrap is the advance of the clock from 23:59:59: it ends a day in PREOPEN, OPEN or LAST_CALL with the day-close
action (its replies behind one that waits already: log 12) and leaves NIGHT and CHECKING as they are. At any other second
there is none (log 1). -/
def Obligations.PhaseBoundaries : Prop :=
  (∀ s : State,
     (boundaryDue s .openMinute → s.day.clock = some (60 * s.day.park.openMinute) →
       let s1 := withoutDue s .openMinute
       (s.day.phase = .preopen → exec .openMinuteBoundary s =
         .next (flagged { s1 with day := { s1.day with phase := .opened } } [.phaseChanged])) ∧
       (s.day.phase ≠ .preopen → exec .openMinuteBoundary s = .next s1)) ∧
     (boundaryDue s .lastCall → s.day.clock = some (60 * s.day.park.lastCallMinute) →
       let s1 := withoutDue s .lastCall
       (s.day.phase = .preopen ∨ s.day.phase = .opened → exec .lastCallBoundary s =
         .next (flagged { s1 with
           day := { s1.day with phase := .lastCall }
           out := { s1.out with lastCalls := s1.out.lastCalls + 1 } } [.phaseChanged])) ∧
       (s.day.phase ≠ .preopen → s.day.phase ≠ .opened → exec .lastCallBoundary s = .next s1))) ∧
  (∀ s : State, s.resetLow = false →
     (s.day.clock ≠ some 86399 → exec .midnightWrap s = .next s) ∧
     (s.day.clock = some 86399 → exec .midnightWrap s = exec .clockAdvance s ∧
       (s.day.due = [] → ∃ t u : State, exec .midnightWrap s = .next t ∧
         u = { s with
           day := { s.day with clock := some 0 }
           rides := u.rides, engine := { s.engine with heldList := u.engine.heldList }, boards := u.boards } ∧
         u.engine.heldList.map HeldEntry.request = s.engine.heldList.map HeldEntry.request ∧
         (inDay s.day.phase = false → t = { u with day := { u.day with due := t.day.due } }) ∧
         (inDay s.day.phase = true → ∃ v, dayClosed u v ∧ t = { v with day := { v.day with due := t.day.due } }))))

/-- At its early-redemption time a FUTURE window of a ride that is UP or SUSPECT becomes REDEEMABLE, one of a ride that is
DOWN or CLOSED becomes LOST with a DISPLACE item if it has holders, and a window in any other state is unchanged. At its
end a window whose ENDED is no is ended and gives an evaluation, and one whose ENDED is yes gives nothing. -/
def Obligations.WindowOpensAndEnds : Prop :=
  (∀ (r : Ride) (k : Nat) (w : Window) (s : State), boundaryDue s (.earlyRedemption r k) → windowOf s r k = some w →
    (rideProfile s r).early ≤ w.start → s.day.clock = some (60 * (w.start - (rideProfile s r).early)) →
    let s1 := withoutDue s (.earlyRedemption r k)
    let lost := changeWindows r (fun ws => ws.set k { w with state := .lost }) s1
    (w.state ≠ .future → exec (.earlyRedemptionTime r k) s = .next s1) ∧
    (w.state = .future → rideState s r = .up ∨ rideState s r = .suspect →
      exec (.earlyRedemptionTime r k) s =
        .next (changeWindows r (fun ws => ws.set k { w with state := .redeemable }) s1)) ∧
    (w.state = .future → rideState s r = .down ∨ rideState s r = .closed →
      (w.holders = [] → exec (.earlyRedemptionTime r k) s = .next lost) ∧
      (w.holders ≠ [] → exec (.earlyRedemptionTime r k) s =
        .next { lost with out := { lost.out with workItems := lost.out.workItems ++ [[⟨r, k, .displace⟩]] } }))) ∧
  ∀ (r : Ride) (k : Nat) (w : Window) (s : State), boundaryDue s (.windowEnd r k) → windowOf s r k = some w →
    s.day.clock = some (60 * w.stop) →
    let s1 := withoutDue s (.windowEnd r k)
    let ended := changeWindows r (fun ws => ws.set k { w with ended := true }) s1
    (w.ended = true → exec (.windowEnd r k) s = .next s1) ∧
    (w.ended = false → exec (.windowEnd r k) s =
      .next { ended with out := { ended.out with evaluations := ended.out.evaluations ++ [⟨r, k, w.stop⟩] } })

/-- R46: at its closing time a REDEEMABLE window becomes PAST, its holders and counts kept, with an EXPIRE item if it has
holders; a window in any other state is unchanged. -/
def Obligations.ClosingTime : Prop :=
  ∀ (r : Ride) (k : Nat) (w : Window) (s : State), boundaryDue s (.closing r k) → windowOf s r k = some w →
    s.day.clock = some (60 * (w.stop + (rideProfile s r).late)) →
    let s1 := withoutDue s (.closing r k)
    let past := changeWindows r (fun ws => ws.set k { w with state := .past }) s1
    (w.state ≠ .redeemable → exec (.closingTime r k) s = .next s1) ∧
    (w.state = .redeemable → w.holders = [] → exec (.closingTime r k) s = .next past) ∧
    (w.state = .redeemable → w.holders ≠ [] → exec (.closingTime r k) s =
      .next { past with out := { past.out with workItems := past.out.workItems ++ [[⟨r, k, .expire⟩]] } })

/-- The posting tick: in the day every enabled ride's estimate is computed, from the rate history rotated at a new minute,
and every ride's posted value follows its state; in NIGHT and CHECKING an enabled ride shows CLOSED and a disabled one
OFF. Changed posted values are handed to the Board Composer; nothing else changes. -/
def Obligations.PostingTick : Prop :=
  ∀ (s : State) (n : Nat), boundaryDue s .postingTick → s.day.clock = some n → ∃ t, exec .postingTick s = .next t ∧
    t = { withoutDue s .postingTick with
      tallies := t.tallies
      out := { s.out with posted := s.out.posted ++
        ((indices 48).filter fun r => (look s.tallies r).posted ≠ (look t.tallies r).posted).map fun r =>
          (r, (look t.tallies r).posted) } } ∧
    ∀ r : Ride,
      let y := look s.tallies r
      let e := look s.rideTable r
      let y1 := if n % 60 = 0 ∧ y.newestMinute < n / 60 then
        { y with buckets := 0 :: y.buckets.dropLast, newestMinute := n / 60 } else y
      let est := if e.enabled then estimateOf n e.inEffect (look s.monitors r).throttle y1 else y.estimate
      (inDay s.day.phase = false → look t.tallies r = { y1 with posted := if e.enabled then .closed else .off }) ∧
      (inDay s.day.phase = true → (look s.rides r).state = .up →
        look t.tallies r = { y1 with
          estimate := est
          posted := match curveMinutes e.postingCurve est with
            | some p => if p ≤ 240 then .wait p else .over
            | none => .over }) ∧
      (inDay s.day.phase = true → (look s.rides r).state = .suspect →
        look t.tallies r = { y1 with estimate := est, posted := .paused }) ∧
      (inDay s.day.phase = true → (look s.rides r).state = .down →
        look t.tallies r = { y1 with estimate := est, posted := .down }) ∧
      (inDay s.day.phase = true → (look s.rides r).state = .closed →
        look t.tallies r = { y1 with estimate := est, posted := .closed }) ∧
      (inDay s.day.phase = true → (look s.rides r).state = .off →
        look t.tallies r = { y1 with estimate := est, posted := .off })

/-- R142: the estimate: the predicted wait from the queue and the rate, or the fallback rate of the designed capacity, or 999,
raised to a fresh observation (R138) and cut to 999.
R143: the posted minutes of an estimate under each curve, and the status they give a ride that is UP. -/
def Obligations.PostedMinutes : Prop :=
  (∀ (now : Nat) (c : CapacityFields) (throttle : Nat) (y : Tally),
    let q := (y.marks.map Mark.count).sum
    let rate := y.buckets.sum * 4
    let fallback := c.hourlyCapacity * (100 - (c.passShare - throttle)) / 100
    ∃ predicted : Nat,
      (q = 0 → predicted = 0) ∧
      (0 < q → 0 < rate → q * 60 ≤ predicted * rate ∧ predicted * rate < q * 60 + rate) ∧
      (0 < q → rate = 0 → 0 < fallback →
        q * 60 ≤ predicted * fallback ∧ predicted * fallback < q * 60 + fallback) ∧
      (0 < q → rate = 0 → fallback = 0 → predicted = 999) ∧
      (∀ o, y.lastObserved = some o → now - o.observedAt < 900 →
        estimateOf now c throttle y = min 999 (max predicted o.minutes)) ∧
      ((∀ o, y.lastObserved = some o → 900 ≤ now - o.observedAt) →
        estimateOf now c throttle y = min 999 predicted)) ∧
  (∀ e, curveMinutes .exact e = some e) ∧
  (∀ e, ∃ p, curveMinutes .fives e = some p ∧ 5 ∣ p ∧ e ≤ p ∧ p < e + 5) ∧
  (∀ e, ∃ q p, curveMinutes .padded e = some p ∧ e * 110 ≤ q * 100 ∧ q * 100 < e * 110 + 100 ∧ 5 ∣ p ∧ q ≤ p ∧
    p < q + 5) ∧
  (∀ e p, curveMinutes .bands e = some p ↔
    p ∈ [5, 10, 15, 20, 30, 45, 60, 75, 90, 120, 150, 180, 240] ∧ e ≤ p ∧
      ∀ b ∈ [5, 10, 15, 20, 30, 45, 60, 75, 90, 120, 150, 180, 240], e ≤ b → p ≤ b) ∧
  (∀ e, curveMinutes .bands e = none ↔ 240 < e) ∧
  (∀ c e p, curveMinutes c e = some p → 240 < p → postedForUp c e = .over) ∧
  (∀ c e p, curveMinutes c e = some p → p ≤ 240 → postedForUp c e = .wait p) ∧
  (∀ c e, curveMinutes c e = none → postedForUp c e = .over) ∧
  curveMinutes .exact 0 = some 0 ∧ curveMinutes .fives 0 = some 0 ∧ curveMinutes .padded 0 = some 0 ∧
  curveMinutes .bands 0 = some 5

/-- At a new minute every ride's dispatch history rotates once. At its expiry a running gap timer stops and its ride
enters SUSPECT, with RIDE_SUSPECT and the new state handed on; a timer that no longer runs, or was restarted, does
nothing.
A due hold expiry: the first entry that has reached HOLD_LIMIT leaves the held list, and its request is answered RETRY
on its own port, or the Pass Engine waits with the reply. While the Pass Engine waits no expiry is taken. That the places of
producers that wait are taken off the room is log 11, the mark of an entry that has reached HOLD_LIMIT is log 13, and that
nothing changes where no expiry is due is log 1. -/
def Obligations.TimersExpire : Prop :=
  ((∀ (s : State) (n : Nat), boundaryDue s .historyRotation → s.day.clock = some n → ∃ t,
     exec .dispatchHistoryRotation s = .next t ∧ t = { withoutDue s .historyRotation with monitors := t.monitors } ∧
     ∀ r, look t.monitors r =
       if (look s.monitors r).newestMinute < n / 60 then
         { look s.monitors r with
           buckets := ((⟨0, 0⟩ : DispatchBucket) :: (look s.monitors r).buckets).take (look s.monitors r).buckets.length
           newestMinute := n / 60 }
       else look s.monitors r) ∧
   ∀ (r : Ride) (s : State), boundaryDue s (.gapExpiry r) →
     let s1 := withoutDue s (.gapExpiry r)
     let x := look s.rides r
     (x.timer.running = true → x.timer.limit ≤ x.timer.elapsed →
       exec (.gapTimerExpiry r) s = .next { s1 with
         rides := put s.rides r { x with state := .suspect, timer := { x.timer with running := false } }
         out := { s.out with
           flags := s.out.flags ++ [.rideSuspect]
           calendarStates := s.out.calendarStates ++ [(r, .suspect)]
           tallyStates := s.out.tallyStates ++ [(r, .suspect)]
           boardStates := s.out.boardStates ++ [r] } }) ∧
     (x.timer.running = false ∨ x.timer.elapsed < x.timer.limit → exec (.gapTimerExpiry r) s = .next s1)) ∧
  (∀ s : State, s.resetLow = false →
     (s.engine.outbox ≠ [] → exec .holdExpiry s = .next s) ∧
     (s.engine.outbox = [] → (∀ e ∈ s.engine.heldList, e.expiring = false) → exec .holdExpiry s = .next s) ∧
     ∀ before e after, s.engine.outbox = [] → s.engine.heldList = before ++ e :: after →
       (∀ x ∈ before, x.expiring = false) → e.expiring = true →
       let q := e.request
       let s1 : State := { s with engine := { s.engine with heldList := before ++ after } }
       let reply : PartFrame := ⟨q.source, .passReply q.tag .retry⟩
       ((portOf s q.port).partQueue.length + (portOf s q.port).waiters.length < 128 →
         exec .holdExpiry s =
           .next (setPort s1 q.port { portOf s q.port with partQueue := (portOf s q.port).partQueue ++ [reply] })) ∧
       (128 ≤ (portOf s q.port).partQueue.length + (portOf s q.port).waiters.length →
         exec .holdExpiry s =
           .next { setPort s1 q.port { portOf s q.port with waiters := (portOf s q.port).waiters ++ [.passEngine] } with
             engine := { s1.engine with outbox := [(q.port, reply)] } }))

/-- The frame of a pending board at the end of its spacing, and of a used board at its refresh, carries the content of its
mode. Below 96 frames in the FIELD output queue it is written, with both counts at 0 and pending and deferred off; at 96
or more the board is deferred. A board that has nothing to send then, or whose spacing count is below 2 again, stays as it
is. That a pending frame carries the content of the board's mode is log 17. -/
def Obligations.BoardFramesAtTheirTimes : Prop :=
  ∀ (b : BoardIx) (s : State),
    let x := look s.boards b
    let e := look s.boardTable b
    let content := match x.mode with
      | .live => liveContent s b
      | .hold => x.frozen.getD .blank
      | .blank => .blank
    let sent (s1 : State) : State := { s1 with
      fieldPort := { s.fieldPort with partQueue := s.fieldPort.partQueue ++ [⟨e.address, .boardFrame content⟩] }
      boards := put s.boards b
        { x with lastSent := some content, spacing := some 0, refresh := 0, pending := false, deferred := false } }
    let deferred (s1 : State) : State :=
      { s1 with boards := put s.boards b { x with refresh := 0, pending := false, deferred := true } }
    (boundaryDue s (.spacingEnd b) →
      let s1 := withoutDue s (.spacingEnd b)
      (x.pending = true → x.spacing = none ∨ (∃ c, x.spacing = some c ∧ 2 ≤ c) →
        (s.fieldPort.partQueue.length < 96 → exec (.boardSpacingEnd b) s = .next (sent s1)) ∧
        (96 ≤ s.fieldPort.partQueue.length → exec (.boardSpacingEnd b) s = .next (deferred s1))) ∧
      (∀ c, x.pending = true → x.spacing = some c → c < 2 → exec (.boardSpacingEnd b) s = .next s1) ∧
      (x.pending = false → exec (.boardSpacingEnd b) s = .next s1)) ∧
    (boundaryDue s (.refresh b) →
      let s1 := withoutDue s (.refresh b)
      (e.address ≠ 0 → x.refresh ≠ 0 →
        (s.fieldPort.partQueue.length < 96 → exec (.boardRefresh b) s = .next (sent s1)) ∧
        (96 ≤ s.fieldPort.partQueue.length → exec (.boardRefresh b) s = .next (deferred s1))) ∧
      (e.address = 0 ∨ x.refresh = 0 → exec (.boardRefresh b) s = .next s1))

/-! ## The management station -/

/-- R184: a MGMT_REPLY goes to the command's source through the TRUNK part output queue, or the Management Unit waits with
it when there is no room.
R104, R113: a verdict under OWN joins the FIELD part output queue, and under OWN_COPY a copy joins the TRUNK part output
queue behind it. Without room the Admission Unit waits with what is not written, and no entry is then delivered: the
commands that take one change nothing (log 1). The room is judged with the places of the producers that wait taken off
(log 11). -/
def Obligations.MessagesWrittenOrWait : Prop :=
  (∀ (e : MgmtEntry) (code : Nat) (a : Answer) (s : State), s.management.outbox = [] →
     let reply : PartFrame := ⟨e.source, .mgmtReply code a.result e.sequence a.ignored a.fields⟩
     (s.trunkPort.partQueue.length + s.trunkPort.waiters.length < 128 →
       mgmtWrite [mgmtReply e code a] s =
         { s with trunkPort := { s.trunkPort with partQueue := s.trunkPort.partQueue ++ [reply] } }) ∧
     (128 ≤ s.trunkPort.partQueue.length + s.trunkPort.waiters.length →
       mgmtWrite [mgmtReply e code a] s = { s with
         trunkPort := { s.trunkPort with waiters := s.trunkPort.waiters ++ [.management] }
         management := { s.management with outbox := [(.trunk, reply)] } })) ∧
  ((∀ (f : PartFrame) (s : State), s.admission.outbox = [] →
     let fieldRoom := s.fieldPort.partQueue.length + s.fieldPort.waiters.length < 128
     let trunkRoom := s.trunkPort.partQueue.length + s.trunkPort.waiters.length < 128
     let wrote : State := { s with fieldPort := { s.fieldPort with partQueue := s.fieldPort.partQueue ++ [f] } }
     let waits (unwritten : List (Port × PartFrame)) : State := { s with
       fieldPort := { s.fieldPort with waiters := s.fieldPort.waiters ++ [.admission] }
       admission := { outbox := unwritten } }
     (fieldRoom → sendVerdict .own f s = wrote) ∧
     (¬fieldRoom → sendVerdict .own f s = waits [(.field, f)]) ∧
     (fieldRoom → trunkRoom → sendVerdict .ownCopy f s = { wrote with
       trunkPort := { s.trunkPort with partQueue := s.trunkPort.partQueue ++ [f] } }) ∧
     (fieldRoom → ¬trunkRoom → sendVerdict .ownCopy f s = { wrote with
       trunkPort := { s.trunkPort with waiters := s.trunkPort.waiters ++ [.admission] }
       admission := { outbox := [(.trunk, f)] } }) ∧
     (¬fieldRoom → sendVerdict .ownCopy f s = waits [(.field, f), (.trunk, f)])) ∧
   ∀ s : State, s.admission.outbox ≠ [] →
     exec .tap s = .next s ∧ exec .dispatch s = .next s ∧ exec .rideStatus s = .next s)

/-- The read commands: each is answered DONE with its reply fields, or with the result its rule names, and changes nothing
but the intake and the reply. That a command with a bad section or mode is served by every row of its command is log 6, that
all blocks are read at one moment is log 32. That a GUEST_READ in mode EXACT of a credential of 0 or all-ones is answered
BAD_VALUE in NIGHT and CHECKING too is log 37, that a COUNTS_READ with index and count both out of range is answered BAD_INDEX
is log 38.
R60, R74, R188, R189, R202, R203: the codes, the widths and the order of the items of the read replies. -/
def Obligations.ReadCommandsAnswered : Prop :=
  (∀ (e : MgmtEntry) (rest : List MgmtEntry) (s : State), mgmtHead s e rest →
     let s1 : State := { s with mgmtIntake := rest }
     let done (code : Nat) (fields : List Byte) : State :=
       mgmtFinish [mgmtReply e code { result := .done, fields := fields }] s1
     let only (code : Nat) (x : MgmtResult) : State := mgmtFinish [mgmtReply e code { result := x }] s1
     (∀ i, e.command = .statusRead 1 i → exec .statusReadPart s = .next (done 0x01 (partStatus s1))) ∧
     (∀ r : Ride, e.command = .statusRead 2 r.val → exec .statusReadRide s = .next (done 0x01 (rideStatus s1 r))) ∧
     (∀ i, 48 ≤ i → e.command = .statusRead 2 i → exec .statusReadRide s = .next (only 0x01 .badIndex)) ∧
     (∀ b : BoardIx, e.command = .statusRead 3 b.val → exec .statusReadBoard s = .next (done 0x01 (boardStatus s1 b))) ∧
     (∀ i, 64 ≤ i → e.command = .statusRead 3 i → exec .statusReadBoard s = .next (only 0x01 .badIndex)) ∧
     (∀ sect i, sect ∉ [1, 2, 3] → e.command = .statusRead sect i →
       exec .statusReadPart s = .next (only 0x01 .badValue) ∧ exec .statusReadRide s = .next (only 0x01 .badValue) ∧
         exec .statusReadBoard s = .next (only 0x01 .badValue)) ∧
     (∀ table index fields t x, e.command = .tableRead table index fields → tableOf table = some t →
       entryAt t index = some x → (∀ n ∈ fields, 1 ≤ n ∧ n ≤ lastField t) → fields.Nodup →
       exec .tableRead s = .next (done 0x02 ((if fields = [] then (List.range (lastField t)).map (· + 1) else fields).flatMap
         fun n => enc1 n ++ enc2 (readField s1 x n)))) ∧
     (∀ table index fields, e.command = .tableRead table index fields →
       (table ∉ [1, 2, 3, 4, 5] → exec .tableRead s = .next (only 0x02 .badValue)) ∧
       ∀ t, tableOf table = some t →
         (entryAt t index = none → exec .tableRead s = .next (only 0x02 .badIndex)) ∧
         (∀ x, entryAt t index = some x → (∃ n ∈ fields, n = 0 ∨ lastField t < n) ∨ ¬fields.Nodup →
           exec .tableRead s = .next (only 0x02 .badValue))) ∧
     (∀ first count, e.command = .countsRead first count → first ≤ 47 → 1 ≤ count → count ≤ 48 →
       exec .countsRead s = .next (done 0x0D (enc1 (min count (48 - first)) ++
         (((indices 48).drop first).take count).flatMap (countBytes s1)))) ∧
     (∀ first count, e.command = .countsRead first count → 47 < first →
       exec .countsRead s = .next (only 0x0D .badIndex)) ∧
     (∀ first count, e.command = .countsRead first count → first ≤ 47 → count = 0 ∨ 48 < count →
       exec .countsRead s = .next (only 0x0D .badValue)) ∧
     (∀ (r : Ride) first count, e.command = .calendarRead r.val first count → 1 ≤ count → count ≤ 96 →
       (inDay s.day.phase = false ∨ rideState s r = .off → exec .calendarRead s = .next (only 0x0E .notFound)) ∧
       (inDay s.day.phase = true → rideState s r ≠ .off →
         (first < (look s.calendar.windows r).length →
           exec .calendarRead s = .next (done 0x0E (calendarBytes s1 r first count))) ∧
         ((look s.calendar.windows r).length ≤ first → exec .calendarRead s = .next (only 0x0E .badIndex)))) ∧
     (∀ ride first count, e.command = .calendarRead ride first count →
       (48 ≤ ride → exec .calendarRead s = .next (only 0x0E .badIndex)) ∧
       (ride < 48 → count = 0 ∨ 96 < count → exec .calendarRead s = .next (only 0x0E .badValue))) ∧
     (∀ mode c, e.command = .guestRead mode c → mode ≠ 1 → mode ≠ 2 →
       exec .guestReadExact s = .next (only 0x0F .badValue) ∧ exec .guestReadNext s = .next (only 0x0F .badValue)) ∧
     (∀ c g, e.command = .guestRead 1 c → validCredential c = true → guestOf c s.guests = some g →
       exec .guestReadExact s = .next (done 0x0F (guestBytes s1 g))) ∧
     (∀ c, e.command = .guestRead 1 c → validCredential c = true → guestOf c s.guests = none →
       exec .guestReadExact s = .next (only 0x0F .notFound)) ∧
     (∀ c, e.command = .guestRead 1 c → validCredential c = false →
       exec .guestReadExact s = .next (only 0x0F .badValue)) ∧
     (∀ c before g after, e.command = .guestRead 2 c → s.guests = before ++ g :: after →
       (∀ x ∈ before, x.credential.toNat ≤ c.toNat) → c.toNat < g.credential.toNat →
       exec .guestReadNext s = .next (done 0x0F (guestBytes s1 g))) ∧
     (∀ c, e.command = .guestRead 2 c → (∀ x ∈ s.guests, x.credential.toNat ≤ c.toNat) →
       exec .guestReadNext s = .next (only 0x0F .notFound))) ∧
  (∀ s : State,
     (partStatus s).length = 49 ∧ (∀ r, (rideStatus s r).length = 47) ∧ (∀ b, (boardStatus s b).length = 3) ∧
     (∀ first count, (countsBytes s first count).length = 1 + 43 * min count (48 - first)) ∧
     (∀ r first count, (calendarBytes s r first count).length =
       1 + 23 * min count ((look s.calendar.windows r).length - first) + 6) ∧
     (∀ g : Guest, (guestBytes s g).length = 7 + 13 * g.passes.length + 3) ∧
     (∀ x, (removedBytes x).length = 4) ∧
     ∀ t x fields, (fieldBytes s t x fields).length = 3 * (if fields = [] then lastField t else fields.length)) ∧
  (∀ s : State,
     let mask := ((indices 48).map fun r => if 0 < look s.walker.displacing r then 2 ^ r.val else 0).sum
     let d := s.day
     partStatus s = laidOut ([(1, phaseCode d.phase)] ++
       (match d.clock with
         | some t => [(1, t / 3600), (1, t / 60 % 60), (1, t % 60)]
         | none => [(3, 0xFFFFFF)]) ++
       [(2, s.nodeAddress.toNat), (1, outcomeCode d.check.outcome), noneOr 1 (d.check.firstCode.map checkCodeNumber),
        noneOr 1 (d.check.firstTable.map tableCode), (2, d.check.firstIndex), (1, d.check.failureCount),
        (3, s.guests.length), (1, s.engine.kiosk.length), (1, s.engine.remote.length), (1, s.engine.heldList.length),
        (1, lastQueueCode s.engine.lastQueue), (1, s.engine.run), (2, s.walker.workList.length)] ++
       (match s.walker.item with
         | some i => [(1, i.ride.val), (1, i.window), (1, workKindCode i.kind),
             (2, (windowOf s i.ride i.window).elim 0 fun w => w.holders.length)]
         | none => [(5, 0xFFFFFFFFFF)]) ++
       [(6, mask), (1, s.fieldPort.receiveBuffer.length), (1, s.fieldPort.relayQueue.length),
        (1, s.fieldPort.partQueue.length), (1, s.trunkPort.receiveBuffer.length), (1, s.trunkPort.relayQueue.length),
        (1, s.trunkPort.partQueue.length), (2, s.fieldIntake.length), (1, s.mgmtIntake.length),
        (2, s.management.flags.toNat), yesOr s.management.hold, (2, d.enableSet.toNat), (2, d.park.noticeTarget.toNat)]) ∧
     (∀ r,
       let y := look s.tallies r
       let m := look s.monitors r
       let f := (look s.rideTable r).inEffect
       rideStatus s r = laidOut ([(1, rideStateCode (look s.rides r).state), (2, (look s.rides r).credit),
         (2, y.marks.length), (2, (y.marks.map Mark.count).sum), yesOr y.saturated, (3, y.buckets.sum * 4),
         noneOr 2 (y.lastObserved.map ObservedWait.minutes), noneOr 3 (y.lastObserved.map ObservedWait.observedAt),
         (2, y.estimate)] ++ postedItems y.posted ++ attributeItems m.throughput f.throughputThreshold ++
         attributeItems m.noShow f.noshowThreshold ++ attributeItems m.mergeLoad f.mergeloadThreshold ++
         [(1, m.derate), (1, m.overbook), (1, m.throttle), (1, m.evaluations), noneOr 1 (m.lastEvaluation.map Prod.fst),
          noneOr 2 (m.lastEvaluation.map Prod.snd)] ++ postedItems (look s.heldValues r))) ∧
     (∀ b, boardStatus s b = laidOut [(1, boardModeCode (look s.boards b).mode), yesOr (look s.boards b).pending,
       yesOr (look s.boards b).deferred]) ∧
     (∀ r,
       let c := look s.management.counts r
       let m := look s.monitors r
       countBytes s r = laidOut [(1, r.val), (3, c.standbyAdmitted), (3, c.standbyRefused), (3, c.mergeAdmitted),
         (3, c.mergeRefused), (3, c.granted), (3, c.refused), (3, c.cancelled), (3, c.shifted), (3, c.flexed), (3, c.expired),
         (3, c.dispatchedRiders), (3, c.unseenBoarders), (2, m.throughput.exceedCount), (2, m.noShow.exceedCount),
         (2, m.mergeLoad.exceedCount)]) ∧
     (∀ r first count,
       let ws := ((look s.calendar.windows r).zipIdx.drop first).take count
       let fs := look s.calendar.flex r
       calendarBytes s r first count = laidOut ([(1, ws.length)] ++ (ws.flatMap fun (w, k) =>
         [(1, k), (2, w.start), (2, w.stop), (1, windowStateCode w.state), yesOr w.ended, (2, w.capacity), (2, w.limit),
          (2, w.booked), (2, w.held), (2, w.redeemed), (2, w.expired), (2, w.movedOut), (2, w.holders.length)]) ++
         [(3, fs.length), (3, (fs.map Holder.party).sum)])) ∧
     (∀ g : Guest, guestBytes s g = laidOut ([(6, g.credential.toNat), (1, g.passes.length)] ++
       (g.passes.flatMap fun p => [(1, p.ride.val), (1, p.party)] ++
         (match p.place with
           | .window k => [(1, k)]
           | .flex => [(1, 0xFF)]) ++
         [(1, p.moves), (1, originCode p.origin), (2, p.grantMinute), (2, (look s.rideTable p.ride).label.toNat)] ++
         (match p.place with
           | .window k => (windowOf s p.ride k).elim [(2, 0), (2, 0)] fun w => [(2, w.start), (2, w.stop)]
           | .flex => [(2, 0), (2, 0)])) ++
       [(3, s.guests.length)])) ∧
     (∀ x, removedBytes x = laidOut [(1, x.party), yesOr x.start.isNone, (2, x.start.getD 0)]) ∧
     ∀ n, enc1 n = bigEndian 1 n ∧ enc2 n = bigEndian 2 n) ∧
  ([.night, .checking, .preopen, .opened, .lastCall].map phaseCode = [1, 2, 3, 4, 5] ∧
   [.none, .passed, .failed, .aborted].map outcomeCode = [1, 2, 3, 4] ∧
   [.dayTimes, .profileInvalid, .profileOverrun, .rideBadProfile, .controllerDup, .labelDup, .noRide, .readerDup,
     .readerBadRide, .boardBadRange].map checkCodeNumber = [1, 2, 3, 4, 5, 6, 7, 8, 9, 10] ∧
   [.park, .profile, .ride, .reader, .board].map tableCode = [1, 2, 3, 4, 5] ∧
   [none, some .kiosk, some .remote].map lastQueueCode = [1, 2, 3] ∧ [.displace, .expire].map workKindCode = [1, 2] ∧
   [.off, .closed, .up, .suspect, .down].map rideStateCode = [1, 2, 3, 4, 5] ∧
   [.future, .redeemable, .past, .lost].map windowStateCode = [1, 2, 3, 4] ∧
   [.live, .hold, .blank].map boardModeCode = [1, 2, 3] ∧ [.kiosk, .remote].map originCode = [1, 2]) ∧
  ∀ s : State,
    let values (x : Entry) (n : Nat) : List Nat := (List.range n).map fun i => readField s x (i + 1)
    let p := s.day.park
    let yes (b : Bool) : Nat := if b then 1 else 0
    (values .park 8 = [p.passesPerGuest, p.openMinute, p.lastCallMinute, if p.arbiterMode = .fixed then 0 else 1, p.runLimit,
      p.holdLimit, p.gatewayAddress.toNat, p.noticeTarget.toNat]) ∧
    (∀ i,
      let e := look s.calendar.profiles i
      values (.profile i) 6 = [e.windowLength, e.firstStart, e.windowCount, e.lead, e.early, e.late]) ∧
    (∀ r,
      let e := look s.rideTable r
      let w := e.written
      values (.ride r) 17 = [e.label.toNat, yes e.enabled, e.controllerAddress.toNat, e.profile.val, w.hourlyCapacity,
        w.passShare, w.reserveShare, w.overbookCap, w.throttleStep, w.derateFloor, w.throughputThreshold,
        w.noshowThreshold, w.mergeloadThreshold, if e.displacePolicy = .shift then 0 else 1, e.gapLimit,
        (match e.postingCurve with
          | .exact => 1
          | .fives => 2
          | .padded => 4
          | .bands => 8), yes e.controllerRelay]) ∧
    (∀ i,
      let e := look s.readers i
      values (.reader i) 5 = [e.address.toNat, e.ride.val, if e.role = .standbyEntry then 0 else 1,
        (match e.claimMode with
          | .forward => 0
          | .observe => 1
          | .own => 2
          | .ownCopy => 3), yes e.used]) ∧
    ∀ b,
      let e := look s.boardTable b
      values (.board b) 5 = [e.address.toNat, e.firstRide, e.rideCount, e.refreshPeriod, e.alertMinutes]

/-- R186: a TABLE_WRITE is judged step by step, and the first case that applies gives the reply; a write answered at steps 1
to 7 writes nothing (that such a reply carries no field-ignored indicator is log 35).
R16, R17, R36, section 2.1, R165, R174, R202: the tables and their entries, the fields' numbers, classes and accepted values,
and what a write outside NIGHT may not leave. -/
def Obligations.TableWriteJudged : Prop :=
  ([1, 2, 3, 4, 5].map tableOf = [some .park, some .profile, some .ride, some .reader, some .board] ∧
   (∀ n, n ∉ [1, 2, 3, 4, 5] → tableOf n = none) ∧
   [.park, .profile, .ride, .reader, .board].map lastField = [8, 6, 17, 5, 5] ∧
   entryAt .park 0 = some .park ∧ (∀ n, 0 < n → entryAt .park n = none) ∧
   (∀ i : ProfileIx, entryAt .profile i.val = some (.profile i)) ∧ (∀ n, 8 ≤ n → entryAt .profile n = none) ∧
   (∀ r : Ride, entryAt .ride r.val = some (.ride r)) ∧ (∀ n, 48 ≤ n → entryAt .ride n = none) ∧
   (∀ i : ReaderIx, entryAt .reader i.val = some (.reader i)) ∧ (∀ n, 512 ≤ n → entryAt .reader n = none) ∧
   (∀ b : BoardIx, entryAt .board b.val = some (.board b)) ∧ (∀ n, 64 ≤ n → entryAt .board n = none)) ∧
  (∀ t n, 1 ≤ n → n ≤ lastField t → (structural t n = true ↔
    (t = .park ∧ n = 1) ∨ t = .profile ∨ (t = .ride ∧ n ≤ 4) ∨ (t = .reader ∧ n ≠ 4))) ∧
  ((∀ x ∈ [(TableId.park, 1, 1, 4), (.park, 2, 0, 1439), (.park, 3, 0, 1439), (.park, 4, 0, 1), (.park, 5, 1, 15),
      (.park, 6, 2, 30), (.park, 7, 0, 65535), (.park, 8, 0, 65535), (.profile, 1, 0, 60), (.profile, 2, 0, 1439),
      (.profile, 3, 0, 255), (.profile, 4, 0, 120), (.profile, 5, 0, 30), (.profile, 6, 0, 60), (.ride, 1, 0, 65535),
      (.ride, 2, 0, 1), (.ride, 3, 0, 65535), (.ride, 4, 0, 7), (.ride, 5, 0, 4000), (.ride, 6, 0, 90), (.ride, 7, 0, 50),
      (.ride, 8, 0, 25), (.ride, 9, 0, 20), (.ride, 10, 10, 100), (.ride, 11, 0, 200), (.ride, 12, 0, 100),
      (.ride, 13, 0, 100), (.ride, 14, 0, 1), (.ride, 16, 0, 65535), (.ride, 17, 0, 1), (.reader, 1, 0, 65535),
      (.reader, 2, 0, 47), (.reader, 3, 0, 1), (.reader, 4, 0, 3), (.reader, 5, 0, 1), (.board, 1, 0, 65535),
      (.board, 2, 0, 47), (.board, 3, 0, 15), (.board, 4, 5, 120)],
     ∀ v, v < 65536 → (accepts x.1 x.2.1 v = true ↔ x.2.2.1 ≤ v ∧ v ≤ x.2.2.2)) ∧
   (∀ v, accepts .ride 15 v = true ↔ v = 0 ∨ (30 ≤ v ∧ v ≤ 1800)) ∧
   ∀ v, accepts .board 5 v = true ↔ v = 0 ∨ (5 ≤ v ∧ v ≤ 240)) ∧
  (∀ (s : State) (items : List (Nat × Nat)), (items.map Prod.fst).Nodup → (∀ i ∈ items, i.2 < 65536) →
    let left (n old : Nat) : Nat := (items.find? fun i => decide (i.1 = n)).elim old Prod.snd
    (leavesUnsound s .park items = true ↔ left 3 s.day.park.lastCallMinute ≤ left 2 s.day.park.openMinute) ∧
    (∀ b,
      let e := look s.boardTable b
      leavesUnsound s (.board b) items = true ↔ left 1 e.address.toNat ≠ 0 ∧
        (left 3 e.rideCount = 0 ∨ 12 < left 3 e.rideCount ∨ 48 < left 2 e.firstRide + left 3 e.rideCount)) ∧
    (∀ i, leavesUnsound s (.profile i) items = false) ∧ (∀ r, leavesUnsound s (.ride r) items = false) ∧
    ∀ i, leavesUnsound s (.reader i) items = false) ∧
  ∀ (e : MgmtEntry) (rest : List MgmtEntry) (table index : Nat) (items : List (Nat × Nat)) (order : List BoardIx)
      (s : State),
    mgmtHead s e rest → e.command = .tableWrite table index items →
    let only (x : MgmtResult) : State := mgmtFinish [mgmtReply e 0x03 { result := x }] { s with mgmtIntake := rest }
    let answers (x : MgmtResult) : Prop := exec (.tableWrite order) s = .next (only x)
    (table ∉ [1, 2, 3, 4, 5] → answers .badValue) ∧
    ∀ t, tableOf table = some t →
      (entryAt t index = none → answers .badIndex) ∧
      ∀ x, entryAt t index = some x →
        let named := (∀ i ∈ items, 1 ≤ i.1 ∧ i.1 ≤ lastField t) ∧ (items.map Prod.fst).Nodup
        let locked := inDay s.day.phase = true ∧ ∃ i ∈ items, structural t i.1 = true
        let accepted := ∀ i ∈ items, accepts t i.1 i.2 = true
        (¬named → answers .badValue) ∧
        (named → s.day.phase = .checking → answers .busy) ∧
        (named → locked → answers .locked) ∧
        (named → s.day.phase ≠ .checking → ¬locked → ¬accepted → answers .badValue) ∧
        (named → s.day.phase ≠ .checking → ¬locked → accepted → inDay s.day.phase = true →
          leavesUnsound s x items = true → answers .badValue)

/-- R187: a taken TABLE_WRITE writes all its fields but an ignored POSTING_CURVE, and no other field of the entry or of any
other entry; the reply is DONE with the field-ignored indicator. What the write may change beside is the phase, the ride's
state, and the frames and states of the boards. -/
def Obligations.TableWriteTaken : Prop :=
  ∀ (e : MgmtEntry) (rest : List MgmtEntry) (table index : Nat) (items : List (Nat × Nat)) (order : List BoardIx)
      (s : State) (t : TableId) (x : Entry),
    mgmtHead s e rest → e.command = .tableWrite table index items → tableOf table = some t →
    entryAt t index = some x → (∀ i ∈ items, 1 ≤ i.1 ∧ i.1 ≤ lastField t ∧ i.2 < 65536) → (items.map Prod.fst).Nodup →
    s.day.phase ≠ .checking → (inDay s.day.phase = true → ∀ i ∈ items, structural t i.1 = false) →
    (∀ i ∈ items, accepts t i.1 i.2 = true) → (inDay s.day.phase = true → leavesUnsound s x items = false) →
    ∃ u, exec (.tableWrite order) s = .next (mgmtFinish [mgmtReply e 0x03 { result := .done, ignored := decide (t = .ride ∧
        ∃ i ∈ items, i.1 = 16 ∧ i.2 ∉ [1, 2, 4, 8]) }] u) ∧
      (∀ i ∈ items, ¬(t = .ride ∧ i.1 = 16 ∧ i.2 ∉ [1, 2, 4, 8]) → readField u x i.1 = i.2) ∧
      (∀ n, 1 ≤ n → n ≤ lastField t → n ∉ items.map Prod.fst → readField u x n = readField s x n) ∧
      (∀ n, t = .ride → n = 16 → (∀ i ∈ items, i.1 = 16 → i.2 ∉ [1, 2, 4, 8]) → readField u x n = readField s x n) ∧
      (∀ y, y ≠ x → ∀ n, readField u y n = readField s y n) ∧
      u = { s with
        mgmtIntake := rest
        day := { s.day with park := u.day.park, phase := u.day.phase }
        rideTable := u.rideTable
        rides := u.rides
        calendar := { s.calendar with profiles := u.calendar.profiles }
        readers := u.readers
        boardTable := u.boardTable
        boards := u.boards
        fieldPort := { s.fieldPort with partQueue := u.fieldPort.partQueue }
        out := { s.out with flags := u.out.flags, lastCalls := u.out.lastCalls } }

/-- R13, R19, R21, R179, R182: what a taken TABLE_WRITE does beside writing fields. Park settings: a changed minute is judged
against the clock's minute in the day, OPEN_MINUTE first, and a write of equal minutes judges nothing (log 24). A ride: in
NIGHT the written capacity fields come into effect and ENABLED moves the ride between CLOSED and OFF; a write of RIDE_LABEL is
a change for the boards that show the ride. A board: an address of 0 clears pending and
deferred, a new address makes a frame of the board's mode due, any other write is a change for the board. Profiles and
readers: nothing. That a STRUCTURAL field written in NIGHT acts at the write is log 42. -/
def Obligations.TableWriteActs : Prop :=
  ∀ (e : MgmtEntry) (rest : List MgmtEntry) (table index : Nat) (items : List (Nat × Nat)) (order : List BoardIx)
      (s : State) (t : TableId) (x : Entry),
    mgmtHead s e rest → e.command = .tableWrite table index items → tableOf table = some t →
    entryAt t index = some x → (∀ i ∈ items, 1 ≤ i.1 ∧ i.1 ≤ lastField t) → (items.map Prod.fst).Nodup →
    s.day.phase ≠ .checking → (inDay s.day.phase = true → ∀ i ∈ items, structural t i.1 = false) →
    (∀ i ∈ items, accepts t i.1 i.2 = true) → (inDay s.day.phase = true → leavesUnsound s x items = false) →
    ∃ (u : State) (a : Answer), exec (.tableWrite order) s = .next (mgmtFinish [mgmtReply e 0x03 a] u) ∧
      let s1 : State := { s with mgmtIntake := rest }
      (x = .park →
        let old := s.day.park
        let p := u.day.park
        let phase := s.day.phase
        let judged := inDay phase = true ∧ (p.openMinute ≠ old.openMinute ∨ p.lastCallMinute ≠ old.lastCallMinute)
        let opens := judged ∧ phase = .preopen ∧ p.openMinute ≤ minuteNow s
        let closes := judged ∧ (phase = .preopen ∨ phase = .opened) ∧ p.lastCallMinute ≤ minuteNow s
        u = { s1 with
          day := { s.day with
            park := p, phase := if closes then .lastCall else if opens then .opened else phase }
          out := { s.out with
            flags := s.out.flags ++ (if opens then [.phaseChanged] else []) ++ (if closes then [.phaseChanged] else [])
            lastCalls := if closes then s.out.lastCalls + 1 else s.out.lastCalls } }) ∧
      (∀ i, x = .profile i → u = { s1 with calendar := { s.calendar with
        profiles := put s.calendar.profiles i (look u.calendar.profiles i) } }) ∧
      (∀ i, x = .reader i → u = { s1 with readers := put s.readers i (look u.readers i) }) ∧
      (∀ r, x = .ride r →
        let old := look s.rideTable r
        let new := look u.rideTable r
        let moved : State := { s1 with
          rideTable := put s.rideTable r new
          rides := if new.enabled = old.enabled then s.rides
            else put s.rides r { look s.rides r with state := if new.enabled then .closed else .off } }
        (inDay s.day.phase = true → new.inEffect = old.inEffect) ∧
        (s.day.phase = .night → old.inEffect = old.written → new.inEffect = new.written) ∧
        (s.day.phase = .night →
          let named (n v : Nat) : Nat := (items.find? fun i => decide (i.1 = n)).elim v Prod.snd
          let f := old.inEffect
          new.inEffect = ⟨named 5 f.hourlyCapacity, named 6 f.passShare, named 7 f.reserveShare, named 8 f.overbookCap,
            named 9 f.throttleStep, named 10 f.derateFloor, named 11 f.throughputThreshold, named 12 f.noshowThreshold,
            named 13 f.mergeloadThreshold⟩) ∧
        (1 ∉ items.map Prod.fst → u = moved) ∧
        (1 ∈ items.map Prod.fst → u = boardsChanged order (fun b => inRange (look s.boardTable b) r) moved)) ∧
      ∀ b, x = .board b →
        let old := look s.boardTable b
        let new := look u.boardTable b
        let y := look s.boards b
        let s2 : State := { s1 with boardTable := put s.boardTable b new }
        let free := y.spacing = none ∨ ∃ n, y.spacing = some n ∧ 2 ≤ n
        let becomes (y' : Board) : State := { s2 with boards := put s.boards b y' }
        (new.address = 0 → old.address = 0 → u = s2) ∧
        (new.address = 0 → old.address ≠ 0 → u = becomes { y with pending := false, deferred := false }) ∧
        (new.address ≠ 0 → new.address = old.address → u = boardChanged b s2) ∧
        (new.address ≠ 0 → new.address ≠ old.address →
          (y.deferred = true → u = s2) ∧
          (y.deferred = false → ¬free → u = becomes { y with pending := true }) ∧
          (y.deferred = false → free → 96 ≤ s.fieldPort.partQueue.length →
            u = becomes { y with refresh := 0, pending := false, deferred := true }) ∧
          (y.deferred = false → free → s.fieldPort.partQueue.length < 96 →
            let c := modeContent s2 b
            u = { becomes { y with
                lastSent := some c, spacing := some 0, refresh := 0, pending := false, deferred := false } with
              fieldPort := { s.fieldPort with
                partQueue := s.fieldPort.partQueue ++ [⟨new.address, .boardFrame c⟩] } }))

/-! ## The day, the clock and the settings by command -/

/-- R7: DAY_OPEN starts the opening check in NIGHT with the clock set: CHECKING, a cleared check record, every count 0; it
is answered CLOCK_UNSET or REFUSED_PHASE otherwise and changes nothing.
R12: PHASE_SET is judged by its target, then by the phase; a later phase is entered with PHASE_CHANGED (and the
hand-off of a change to LAST_CALL), the present one changes nothing, an earlier one is refused. -/
def Obligations.DayOpenAndPhaseSet : Prop :=
  (∀ (e : MgmtEntry) (rest : List MgmtEntry) (s : State), mgmtHead s e rest → e.command = .dayOpen →
     let s1 : State := { s with mgmtIntake := rest }
     let answers (x : MgmtResult) (u : State) : Prop :=
       exec .dayOpen s = .next (mgmtFinish [mgmtReply e 0x04 { result := x }] u)
     (s.day.phase ≠ .night → answers .refusedPhase s1) ∧
     (s.day.phase = .night → s.day.clock = none → answers .clockUnset s1) ∧
     (s.day.phase = .night → s.day.clock.isSome = true → answers .accepted (flagged { s1 with
       day := { s.day with phase := .checking, check := ⟨.none, none, none, 0, 0⟩ }
       management := { s.management with counts := filled 48 ⟨0, 0, 0, 0, 0, 0, 0, 0, 0, 0, 0, 0⟩ } } [.phaseChanged]))) ∧
  (∀ (e : MgmtEntry) (rest : List MgmtEntry) (code : Nat) (s : State), mgmtHead s e rest → e.command = .phaseSet code →
     let s1 : State := { s with mgmtIntake := rest }
     let answers (x : MgmtResult) (u : State) : Prop :=
       exec .phaseSet s = .next (mgmtFinish [mgmtReply e 0x05 { result := x }] u)
     (code ∉ [1, 2, 3, 4, 5] → answers .badValue s1) ∧
     (code ∈ [1, 2, 3, 4, 5] → s.day.phase = .night ∨ s.day.phase = .checking → answers .refusedPhase s1) ∧
     (s.day.phase = .preopen →
       (code = 1 ∨ code = 2 → answers .refusedPhase s1) ∧ (code = 3 → answers .done s1) ∧
       (code = 4 → answers .done (flagged { s1 with day := { s.day with phase := .opened } } [.phaseChanged])) ∧
       (code = 5 → answers .done (flagged { s1 with
         day := { s.day with phase := .lastCall }
         out := { s.out with lastCalls := s.out.lastCalls + 1 } } [.phaseChanged]))) ∧
     (s.day.phase = .opened →
       (code = 1 ∨ code = 2 ∨ code = 3 → answers .refusedPhase s1) ∧ (code = 4 → answers .done s1) ∧
       (code = 5 → answers .done (flagged { s1 with
         day := { s.day with phase := .lastCall }
         out := { s.out with lastCalls := s.out.lastCalls + 1 } } [.phaseChanged]))) ∧
     (s.day.phase = .lastCall →
       (code = 1 ∨ code = 2 ∨ code = 3 ∨ code = 4 → answers .refusedPhase s1) ∧ (code = 5 → answers .done s1)))

/-- R14, R15: DAY_CLOSE ends a day with the day-close action, abandons a check in progress, and changes nothing in NIGHT; the
reply is DONE. That the PHASE_CLOSED replies of the close stand behind a reply that the Pass Engine already waits with is the
model's choice (log 12). -/
def Obligations.DayClose : Prop :=
  ∀ (e : MgmtEntry) (rest : List MgmtEntry) (s : State), mgmtHead s e rest → e.command = .dayClose →
    let s1 : State := { s with mgmtIntake := rest }
    let done (u : State) : State := mgmtFinish [mgmtReply e 0x06 { result := .done }] u
    (s.day.phase = .night → exec .dayClose s = .next (done s1)) ∧
    (s.day.phase = .checking → exec .dayClose s = .next (done (flagged { s1 with
      day := { s.day with phase := .night, check := { s.day.check with outcome := .aborted } } } [.phaseChanged]))) ∧
    (inDay s.day.phase = true → ∃ u, exec .dayClose s = .next (done u) ∧ dayClosed s1 u)

/-- R3, R4, R5: CLOCK_SET takes a time of day in NIGHT alone. CLOCK_TRIM by 1 to 59 seconds passes that many seconds forward;
by -1 to -59 it sets the clock back and changes nothing else. Boundaries of the present second that are left are taken
first (log 5).
R4: a forward trim is the clock's running: each of its seconds is an advance, with every boundary of the second taken
before the next, those in the order that the command names for it first, each as its own command takes it. -/
def Obligations.ClockSetAndTrim : Prop :=
  (∀ (e : MgmtEntry) (rest : List MgmtEntry) (s : State), mgmtHead s e rest →
     let s1 : State := { s with mgmtIntake := rest }
     (∀ h m sec, e.command = .clockSet h m sec →
       let answers (x : MgmtResult) (u : State) : Prop :=
         exec .clockSet s = .next (mgmtFinish [mgmtReply e 0x07 { result := x }] u)
       (23 < h ∨ 59 < m ∨ 59 < sec → answers .badValue s1) ∧
       (h ≤ 23 → m ≤ 59 → sec ≤ 59 →
         (s.day.phase = .checking → answers .busy s1) ∧
         (inDay s.day.phase = true → answers .refusedPhase s1) ∧
         (s.day.phase = .night →
           (s.day.due = [] → answers .done { s1 with day := { s.day with clock := some (h * 3600 + m * 60 + sec) } }) ∧
           (answers .done { settle [] s1 with
             day := { (settle [] s1).day with clock := some (h * 3600 + m * 60 + sec) } }) ∧
           ∃ u, answers .done u ∧ u.day.clock = some (h * 3600 + m * 60 + sec) ∧ u.day.due = []))) ∧
     ∀ n orders, e.command = .clockTrim n →
       let answers (x : MgmtResult) (u : State) : Prop :=
         exec (.clockTrim orders) s = .next (mgmtFinish [mgmtReply e 0x08 { result := x }] u)
       (n = 0 ∨ n < -59 ∨ 59 < n → answers .badValue s1) ∧
       (n ≠ 0 → -59 ≤ n → n ≤ 59 →
         (s.day.phase = .checking → answers .busy s1) ∧
         (s.day.phase ≠ .checking → s.day.clock = none → answers .clockUnset s1) ∧
         ∀ t0, s.day.phase ≠ .checking → s.day.clock = some t0 →
           (n < 0 → s.day.due = [] → answers .done
             { s1 with day := { s.day with clock := some ((t0 + 86400 - n.natAbs) % 86400) } }) ∧
           (n < 0 → answers .done { settle [] s1 with
             day := { (settle [] s1).day with clock := some ((t0 + 86400 - n.natAbs) % 86400) } }) ∧
           (0 < n → answers .done (passSeconds n.natAbs orders (settle [] s1)) ∧
             (passSeconds n.natAbs orders (settle [] s1)).day.clock = some ((t0 + n.natAbs) % 86400) ∧
             (passSeconds n.natAbs orders (settle [] s1)).day.due = []))) ∧
  ((∀ (n : Nat) (orders : List (List Boundary)) (s t : State), s.resetLow = false → s.day.due = [] →
     s.day.clock.isSome = true → exec .clockAdvance s = .next t →
     passSeconds (n + 1) orders s = passSeconds n orders.tail (settle (orders.headD []) t)) ∧
   (∀ (orders : List (List Boundary)) (s : State), passSeconds 0 orders s = s) ∧
   (∀ (order : List Boundary) (s : State), (settle order s).day.due = []) ∧
   (∀ s : State, s.day.due = [] → ∀ order, settle order s = s) ∧
   (∀ (order : List Boundary) (s : State), (settle order s).day.clock = s.day.clock) ∧
   ∀ s : State, s.resetLow = false →
     (∀ b order, b ∉ s.day.due → settle (b :: order) s = settle order s) ∧
     (∀ b order, b ∈ s.day.due → ∃ t, boundaryTaken b s t ∧ settle (b :: order) s = settle order t) ∧
     ∀ b bs, s.day.due = b :: bs → ∃ t, boundaryTaken b s t ∧ settle [] s = settle [] t)

/-- R191, R192: NOTICE_SET sets the enable set and the target, NOTICE_CLEAR clears the named flags and turns the hold off; a
set that names a bit beyond the twelve flags is refused.
R190, R193: a flag hand-off sets its flag. At the end of an event of the Management Unit, with the hold off, a target
and an enabled flag set, a NOTICE of every set flag is made behind the event's own frames and the hold goes on; otherwise
none is made. That a NOTICE_FLAG_SET without a hand-off of its flag changes nothing is log 1.
Section 13.3: the flags are bits 0 to 11 in the order of section 12.4. -/
def Obligations.Notices : Prop :=
  (∀ (e : MgmtEntry) (rest : List MgmtEntry) (flags : BitVec 16) (s : State), mgmtHead s e rest →
     let s1 : State := { s with mgmtIntake := rest }
     (∀ target, e.command = .noticeSet flags target →
       (4096 ≤ flags.toNat →
         exec .noticeSet s = .next (mgmtFinish [mgmtReply e 0x0B { result := .badValue }] s1)) ∧
       (flags.toNat < 4096 → exec .noticeSet s = .next (mgmtFinish [mgmtReply e 0x0B { result := .done }]
         { s1 with day := { s.day with
             enableSet := flags.setWidth 12, park := { s.day.park with noticeTarget := target } } }))) ∧
     (e.command = .noticeClear flags →
       (4096 ≤ flags.toNat →
         exec .noticeClear s = .next (mgmtFinish [mgmtReply e 0x0C { result := .badValue }] s1)) ∧
       (flags.toNat < 4096 → exec .noticeClear s = .next (mgmtFinish [mgmtReply e 0x0C { result := .done }]
         { s1 with management := { s.management with
             flags := s.management.flags &&& ~~~(flags.setWidth 12), hold := false } })))) ∧
  ((∀ (f : Flag) (s : State), s.resetLow = false →
     (f ∉ s.out.flags → exec (.noticeFlagSet f) s = .next s) ∧
     (f ∈ s.out.flags → exec (.noticeFlagSet f) s = .next (mgmtFinish [] { s with
       out := { s.out with flags := s.out.flags.erase f }
       management := { s.management with flags := s.management.flags ||| ((1 : FlagSet) <<< flagBit f) } }))) ∧
   ∀ (fs : List (Port × PartFrame)) (s : State),
     (s.management.hold = false → s.day.park.noticeTarget ≠ 0 →
       (∃ i, s.management.flags.getLsbD i = true ∧ s.day.enableSet.getLsbD i = true) →
       mgmtFinish fs s = mgmtWrite (fs ++ [(.trunk, ⟨s.day.park.noticeTarget, .notice s.management.flags⟩)])
         { s with management := { s.management with hold := true } }) ∧
     (s.management.hold = true ∨ s.day.park.noticeTarget = 0 ∨
       (∀ i, s.management.flags.getLsbD i = true → s.day.enableSet.getLsbD i = false) → mgmtFinish fs s = mgmtWrite fs s)) ∧
  [.rideDown, .rideSuspect, .attrExceeded, .walkIdle, .guestHigh, .guestFull, .intakeOverflow, .relayDrop, .tallySaturated,
    .checkDone, .phaseChanged, .badMessage].map flagBit = List.range 12

/-! ## The opening check -/

/-- R10: the check completes. Its faults fail it: the first one and their number are recorded and the phase is NIGHT. Without
a fault the day is set up: every enabled ride has its windows, all empty, rides are at rest with fresh tallies and
monitors, the capacity fields come into effect, and the phase follows the clock's minute. Hand-offs left from an earlier
day are dropped (log 4). That the command changes nothing in any phase but CHECKING, where there is no check to complete, is
the model's choice (log 1). -/
def Obligations.CheckComplete : Prop :=
  ∀ s : State, s.resetLow = false →
    (s.day.phase ≠ .checking → exec .checkComplete s = .next s) ∧
    (s.day.phase = .checking → ∀ f fs, checkFaults s = f :: fs → exec .checkComplete s = .next (flagged { s with
      day := { s.day with
        phase := .night
        check := ⟨.failed, some f.code, some f.table, f.index, min 255 (fs.length + 1)⟩ } } [.checkDone, .phaseChanged])) ∧
    (s.day.phase = .checking → checkFaults s = [] → ∃ t, exec .checkComplete s = .next t ∧
      t = { s with
        day := t.day, rideTable := t.rideTable, rides := t.rides, calendar := t.calendar, tallies := t.tallies,
        monitors := t.monitors, out := t.out } ∧
      t.day = { s.day with
        check := ⟨.passed, none, none, 0, 0⟩
        phase := if minuteNow s < s.day.park.openMinute then .preopen
          else if minuteNow s < s.day.park.lastCallMinute then .opened else .lastCall } ∧
      t.calendar.profiles = s.calendar.profiles ∧
      (∀ r : Ride,
        let e := look s.rideTable r
        look t.rideTable r = { e with inEffect := e.written } ∧
        look t.rides r = { state := if e.enabled then .closed else .off } ∧
        look t.tallies r = { newestMinute := minuteNow s, posted := if e.enabled then .closed else .off } ∧
        look t.monitors r = { newestMinute := minuteNow s } ∧
        look t.calendar.flex r = [] ∧
        (e.enabled = false → look t.calendar.windows r = []) ∧
        (e.enabled = true →
          let p := look s.calendar.profiles e.profile
          (look t.calendar.windows r).length = p.windowCount ∧
          ∀ k, k < p.windowCount →
            let start := p.firstStart + k * p.windowLength
            let c := min 400 (e.written.hourlyCapacity * p.windowLength * e.written.passShare / 6000)
            windowOf t r k = some
              { start := start
                stop := start + p.windowLength
                state := if start ≤ minuteNow s + p.early then .past else .future
                ended := decide (start + p.windowLength ≤ minuteNow s)
                capacity := c
                limit := c - c * e.written.reserveShare / 100 })) ∧
      t.out = {
        flags := s.out.flags ++ [.checkDone, .phaseChanged]
        posted := s.out.posted ++
          ((indices 48).filter fun r => (look s.tallies r).posted ≠ (look t.tallies r).posted).map fun r =>
            (r, (look t.tallies r).posted)
        boardStates := s.out.boardStates
        lastCalls := if t.day.phase = .lastCall then 1 else 0 })

/-- R8: the faults of the opening check: when a code is found with a table and index; there are no others, and they stand in
the order of the walk, on which R9's first fault rests. The order of a reader's two codes is log 33. -/
def Obligations.CheckFaultsFound : Prop :=
  ∀ s : State,
    let badLength (p : Profile) : Prop :=
      p.windowLength ∉ [5, 10, 15, 20, 30, 60] ∨ p.windowCount = 0 ∨ 96 < p.windowCount
    let overrun (p : Profile) : Prop := ¬badLength p ∧ 1440 < p.firstStart + p.windowCount * p.windowLength
    let named (n : ProfileIx) : Prop :=
      ∃ r : Ride, (look s.rideTable r).enabled = true ∧ (look s.rideTable r).profile = n
    let faults := checkFaults s
    let codeOrder : CheckCode → Nat
      | .controllerDup => 1
      | .labelDup => 2
      | .readerBadRide => 1
      | _ => 0
    let tableOrder : CheckCode → Nat
      | .dayTimes => 0
      | .profileInvalid => 1
      | .profileOverrun => 1
      | .rideBadProfile => 2
      | .controllerDup => 2
      | .labelDup => 2
      | .noRide => 3
      | .readerDup => 4
      | .readerBadRide => 4
      | .boardBadRange => 5
    let before (f g : CheckFault) : Prop :=
      tableOrder f.code < tableOrder g.code ∨ (tableOrder f.code = tableOrder g.code ∧
        (f.index < g.index ∨ (f.index = g.index ∧ codeOrder f.code < codeOrder g.code)))
    faults.Nodup ∧ faults.Pairwise before ∧
    (∀ f ∈ faults,
      f = ⟨.dayTimes, .park, 0⟩ ∨ f = ⟨.noRide, .ride, 0⟩ ∨
      (f.code ∈ [.profileInvalid, .profileOverrun] ∧ f.table = .profile ∧ f.index < 8) ∨
      (f.code ∈ [.rideBadProfile, .controllerDup, .labelDup] ∧ f.table = .ride ∧ f.index < 48) ∨
      (f.code ∈ [.readerDup, .readerBadRide] ∧ f.table = .reader ∧ f.index < 512) ∨
      (f.code = .boardBadRange ∧ f.table = .board ∧ f.index < 64)) ∧
    (∀ f ∈ faults, f.code = .dayTimes → f = ⟨.dayTimes, .park, 0⟩) ∧
    (⟨.dayTimes, .park, 0⟩ ∈ faults ↔ s.day.park.lastCallMinute ≤ s.day.park.openMinute) ∧
    (∀ n : ProfileIx, ⟨.profileInvalid, .profile, n.val⟩ ∈ faults ↔ named n ∧ badLength (look s.calendar.profiles n)) ∧
    (∀ n : ProfileIx, ⟨.profileOverrun, .profile, n.val⟩ ∈ faults ↔ named n ∧ overrun (look s.calendar.profiles n)) ∧
    (∀ r : Ride,
      let e := look s.rideTable r
      let p := look s.calendar.profiles e.profile
      (⟨.rideBadProfile, .ride, r.val⟩ ∈ faults ↔ e.enabled = true ∧ (badLength p ∨ overrun p)) ∧
      (⟨.controllerDup, .ride, r.val⟩ ∈ faults ↔ e.enabled = true ∧ (e.controllerAddress = 0 ∨
        ∃ q : Ride, q < r ∧ (look s.rideTable q).enabled = true ∧
          (look s.rideTable q).controllerAddress = e.controllerAddress)) ∧
      (⟨.labelDup, .ride, r.val⟩ ∈ faults ↔ e.enabled = true ∧
        ∃ q : Ride, q < r ∧ (look s.rideTable q).enabled = true ∧ (look s.rideTable q).label = e.label)) ∧
    (⟨.noRide, .ride, 0⟩ ∈ faults ↔ ∀ r : Ride, (look s.rideTable r).enabled = false) ∧
    (∀ i : ReaderIx,
      let e := look s.readers i
      (⟨.readerDup, .reader, i.val⟩ ∈ faults ↔ e.used = true ∧
        ∃ j : ReaderIx, j < i ∧ (look s.readers j).used = true ∧ (look s.readers j).address = e.address) ∧
      (⟨.readerBadRide, .reader, i.val⟩ ∈ faults ↔
        e.used = true ∧ e.claimMode ≠ .forward ∧ (look s.rideTable e.ride).enabled = false)) ∧
    (∀ b : BoardIx,
      let e := look s.boardTable b
      ⟨.boardBadRange, .board, b.val⟩ ∈ faults ↔ e.address ≠ 0 ∧
        (e.rideCount = 0 ∨ 12 < e.rideCount ∨ 48 < e.firstRide + e.rideCount))

/-! ## Rides -/

/-- R22, R23: a RIDE_STATUS of UP, DOWN or CLOSED from an enabled ride's controller moves the ride in the day, unless it
reports the present state; any other code sets BAD_MESSAGE. RIDE_OVERRIDE does the same by ride index, judged by index,
state, phase and OFF. That a bad code sets the flag in every phase is log 16. -/
def Obligations.RideReports : Prop :=
  (∀ (e : FieldEntry) (rest : List FieldEntry) (code : Nat) (s : State), fieldHead s e rest → e.body = .rideStatus code →
    let s1 : State := { s with fieldIntake := rest }
    (code ∉ [1, 2, 3] → exec .rideStatus s = .next (flagged s1 [.badMessage])) ∧
    ∀ st, (code, st) ∈ [(1, RideState.up), (2, .down), (3, .closed)] →
      (inDay s.day.phase = false ∨ rideByController s e.source = none → exec .rideStatus s = .next s1) ∧
      ∀ r, inDay s.day.phase = true → rideByController s e.source = some r →
        ((look s.rides r).state = .off ∨ (look s.rides r).state = st → exec .rideStatus s = .next s1) ∧
        ((look s.rides r).state ≠ .off → (look s.rides r).state ≠ st →
          exec .rideStatus s = .next (rideEnters s1 r st))) ∧
  ∀ (e : MgmtEntry) (rest : List MgmtEntry) (index code : Nat) (s : State),
    mgmtHead s e rest → e.command = .rideOverride index code →
    let s1 : State := { s with mgmtIntake := rest }
    let answers (x : MgmtResult) (u : State) : Prop :=
      exec .rideOverride s = .next (mgmtFinish [mgmtReply e 0x09 { result := x }] u)
    (47 < index → answers .badIndex s1) ∧
    ∀ r : Ride, index = r.val →
      (code ∉ [1, 2, 3] → answers .badValue s1) ∧
      ∀ st, (code, st) ∈ [(1, RideState.up), (2, .down), (3, .closed)] →
        (s.day.phase = .checking → answers .busy s1) ∧
        (s.day.phase = .night → answers .refusedPhase s1) ∧
        (inDay s.day.phase = true → (look s.rides r).state = .off → answers .notFound s1) ∧
        (inDay s.day.phase = true → (look s.rides r).state ≠ .off → (look s.rides r).state = st → answers .done s1) ∧
        (inDay s.day.phase = true → (look s.rides r).state ≠ .off → (look s.rides r).state ≠ st →
          answers .done (rideEnters s1 r st))

/-- R31, R32, R33: a DISPATCH of `n` riders with a credit of `c` takes min n c from the credit, counts `n` and hands on the
standby part and the record. UP restarts its gap timer by R27, SUSPECT enters UP, and any other state stays. Outside the
day, or without an enabled ride for its source, it changes nothing. -/
def Obligations.DispatchAccounts : Prop :=
  ∀ (e : FieldEntry) (rest : List FieldEntry) (n : Nat) (s : State), fieldHead s e rest → e.body = .dispatch n →
    let s1 : State := { s with fieldIntake := rest }
    (inDay s.day.phase = false ∨ rideByController s e.source = none → exec .dispatch s = .next s1) ∧
    ∀ r, inDay s.day.phase = true → rideByController s e.source = some r →
      let x := look s.rides r
      let part := min n x.credit
      let time := e.time.getD (clockNow s)
      let g := (look s.rideTable r).gapLimit
      let timer : GapTimer := if g = 0 then { x.timer with running := false } else ⟨true, g, 0⟩
      let accounts (y : RideRun) : State := { s1 with
        rides := put s.rides r { y with credit := x.credit - part }
        management := { s.management with counts := upd s.management.counts r fun c =>
          { c with dispatchedRiders := min 16777215 (c.dispatchedRiders + n) } }
        out := { s.out with
          dispatches := s.out.dispatches ++ [⟨r, n - part, time⟩]
          records := s.out.records ++ [⟨r, time, n, part⟩] } }
      (x.state = .off → exec .dispatch s = .next s1) ∧
      (x.state = .up → exec .dispatch s = .next (accounts { x with timer := timer })) ∧
      (x.state = .down ∨ x.state = .closed → exec .dispatch s = .next (accounts x)) ∧
      (x.state = .suspect → exec .dispatch s = .next (rideEnters (accounts x) r .up))

/-- R30: an addition raises the credit to at most 1000 in the day and is discarded outside it. That of several outstanding
additions of one ride the oldest is taken is the model's choice (log 41).
R34: with a credit of 0, an addition of 4 and a dispatch of 20 riders, the addition first gives a pass part of 4, a
standby part of 16 and a credit of 0; the dispatch first gives 0, 20 and a credit of 4. -/
def Obligations.CreditAddition : Prop :=
  (∀ (r : Ride) (n : Nat) (before after : List (Ride × Nat)) (s : State), s.resetLow = false →
     s.out.credits = before ++ (r, n) :: after → (∀ x ∈ before, x.1 ≠ r) →
     let s1 : State := { s with out := { s.out with credits := before ++ after } }
     (inDay s.day.phase = false → exec (.creditAddition r) s = .next s1) ∧
     (inDay s.day.phase = true → exec (.creditAddition r) s = .next { s1 with
       rides := put s.rides r { look s.rides r with credit := min 1000 ((look s.rides r).credit + n) } })) ∧
  (∀ (e : FieldEntry) (r : Ride) (before after : List (Ride × Nat)) (rest : List FieldEntry) (s : State),
     fieldHead s e rest → e.body = .dispatch 20 → inDay s.day.phase = true → rideByController s e.source = some r →
     (look s.rides r).state ≠ .off → (look s.rides r).credit = 0 →
     s.out.credits = before ++ (r, 4) :: after → (∀ x ∈ before, x.1 ≠ r) →
     (∃ t u d, exec (.creditAddition r) s = .next t ∧ exec .dispatch t = .next u ∧ (look u.rides r).credit = 0 ∧
       u.out.dispatches = s.out.dispatches ++ [d] ∧ d.ride = r ∧ d.standbyPart = 16 ∧
       ∃ c, u.out.records = s.out.records ++ [c] ∧ c.ride = r ∧ c.riders = 20 ∧ c.passPart = 4) ∧
     ∃ t u d, exec .dispatch s = .next t ∧ exec (.creditAddition r) t = .next u ∧ (look u.rides r).credit = 4 ∧
       u.out.dispatches = s.out.dispatches ++ [d] ∧ d.ride = r ∧ d.standbyPart = 20 ∧
       ∃ c, u.out.records = s.out.records ++ [c] ∧ c.ride = r ∧ c.riders = 20 ∧ c.passPart = 0)

/-! ## Admission -/

/-- R98, R99: a tap with a head count of 0 or above 8 sets BAD_MESSAGE and does nothing else. Any other tap under OWN or
OWN_COPY is refused PARK_CLOSED outside the day, uncounted, then BAD_CREDENTIAL, then RIDE_CLOSED for an OFF ride, both
counted for the reader's role.
R111, R112: a tap under OBSERVE with a head count from 1 to 8 makes a standby hand-off or an addition of its head count
to the pass credit, in the day and for a reader whose ride is not OFF; otherwise it does nothing. -/
def Obligations.TapsRefusedOrObserved : Prop :=
  (∀ (e : FieldEntry) (rest : List FieldEntry) (i : ReaderIx) (mode : ActedMode) (c : Credential) (h : Nat) (tag : Tag)
       (s : State),
     fieldHead s e rest → e.body = .tap i mode c h tag →
     let s1 : State := { s with fieldIntake := rest }
     let rd := look s.readers i
     let refused (x : VerdictResult) (u : State) : State :=
       sendVerdict mode ⟨e.source, .verdict (look s.rideTable rd.ride).label x none none tag⟩ u
     let count (k : RideCounts) : RideCounts := match rd.role with
       | .standbyEntry => { k with standbyRefused := min 16777215 (k.standbyRefused + 1) }
       | .passMerge => { k with mergeRefused := min 16777215 (k.mergeRefused + 1) }
     let counted : State :=
       { s1 with management := { s.management with counts := upd s.management.counts rd.ride count } }
     (h = 0 ∨ 8 < h → exec .tap s = .next (flagged s1 [.badMessage])) ∧
     (1 ≤ h → h ≤ 8 → mode ≠ .observe →
       (inDay s.day.phase = false → exec .tap s = .next (refused .refuseParkClosed s1)) ∧
       (inDay s.day.phase = true → c = 0 ∨ c = BitVec.allOnes 48 →
         exec .tap s = .next (refused .refuseBadCredential counted)) ∧
       (inDay s.day.phase = true → c ≠ 0 → c ≠ BitVec.allOnes 48 → (look s.rides rd.ride).state = .off →
         exec .tap s = .next (refused .refuseRideClosed counted)))) ∧
  (∀ (e : FieldEntry) (rest : List FieldEntry) (i : ReaderIx) (c : Credential) (h : Nat) (tag : Tag) (s : State),
     fieldHead s e rest → e.body = .tap i .observe c h tag → 1 ≤ h → h ≤ 8 →
     let s1 : State := { s with fieldIntake := rest }
     let r := (look s.readers i).ride
     (inDay s.day.phase = false ∨ (look s.rides r).state = .off → exec .tap s = .next s1) ∧
     (inDay s.day.phase = true → (look s.rides r).state ≠ .off → (look s.readers i).role = .standbyEntry →
       exec .tap s = .next { s1 with
         out := { s.out with standbys := s.out.standbys ++ [⟨r, h, e.time.getD (clockNow s)⟩] } }) ∧
     (inDay s.day.phase = true → (look s.rides r).state ≠ .off → (look s.readers i).role = .passMerge →
       exec .tap s = .next { s1 with out := { s.out with credits := s.out.credits ++ [(r, h)] } }))

/-- R100: a STANDBY_ENTRY tap past R99 is admitted with its head count while the ride is UP or SUSPECT, with a standby
hand-off, and refused while it is DOWN or CLOSED; each is counted. -/
def Obligations.StandbyTapsJudged : Prop :=
  ∀ (e : FieldEntry) (rest : List FieldEntry) (i : ReaderIx) (mode : ActedMode) (c : Credential) (h : Nat) (tag : Tag)
      (s : State),
    fieldHead s e rest → e.body = .tap i mode c h tag → (look s.readers i).role = .standbyEntry → 1 ≤ h → h ≤ 8 →
    mode ≠ .observe → inDay s.day.phase = true → c ≠ 0 → c ≠ BitVec.allOnes 48 →
    let r := (look s.readers i).ride
    let verdict (x : VerdictResult) (party : Option Nat) (u : State) : State :=
      sendVerdict mode ⟨e.source, .verdict (look s.rideTable r).label x party none tag⟩ u
    let counted (f : RideCounts → RideCounts) : State := { s with
      fieldIntake := rest, management := { s.management with counts := upd s.management.counts r f } }
    let admitted := counted fun k => { k with standbyAdmitted := min 16777215 (k.standbyAdmitted + 1) }
    let refused := counted fun k => { k with standbyRefused := min 16777215 (k.standbyRefused + 1) }
    ((look s.rides r).state = .up ∨ (look s.rides r).state = .suspect →
      exec .tap s = .next (verdict .admitStandby (some h) { admitted with
        out := { s.out with standbys := s.out.standbys ++ [⟨r, h, e.time.getD (clockNow s)⟩] } })) ∧
    ((look s.rides r).state = .down → exec .tap s = .next (verdict .refuseRideDown none refused)) ∧
    ((look s.rides r).state = .closed → exec .tap s = .next (verdict .refuseRideClosed none refused))

/-- R54, R101, R102, R103: a PASS_MERGE tap past R99 is judged by the window that holds the pass and the ride's state. An
admitted pass leaves its window or the flex list and the Guest Table, its party goes to the pass credit, and the tap is
counted admitted; a refusal changes the refused count alone. REFUSE_EARLY carries the minutes to the early-redemption time, 1
where they are 0; that it carries 1 where they are negative, after a backward trim, is the model's choice (log 36). -/
def Obligations.MergeTapsJudged : Prop :=
  ∀ (e : FieldEntry) (rest : List FieldEntry) (i : ReaderIx) (mode : ActedMode) (c : Credential) (h : Nat) (tag : Tag)
      (s : State),
    fieldHead s e rest → e.body = .tap i mode c h tag → (look s.readers i).role = .passMerge → 1 ≤ h → h ≤ 8 →
    mode ≠ .observe → inDay s.day.phase = true → c ≠ 0 → c ≠ BitVec.allOnes 48 →
    (look s.rides (look s.readers i).ride).state ≠ .off →
    let r := (look s.readers i).ride
    let verdict (x : VerdictResult) (party minutes : Option Nat) (u : State) : State :=
      sendVerdict mode ⟨e.source, .verdict (look s.rideTable r).label x party minutes tag⟩ u
    let refused (x : VerdictResult) (minutes : Option Nat) : Prop :=
      exec .tap s = .next (verdict x none minutes { s with
        fieldIntake := rest
        management := { s.management with counts := upd s.management.counts r fun k =>
          { k with mergeRefused := min 16777215 (k.mergeRefused + 1) } } })
    let admitted (x : VerdictResult) (party : Nat) (cal : Calendar) : Prop :=
      exec .tap s = .next (verdict x (some party) none { s with
        fieldIntake := rest
        calendar := cal
        guests := dropPass c r s.guests
        management := { s.management with counts := upd s.management.counts r fun k =>
          { k with mergeAdmitted := min 16777215 (k.mergeAdmitted + 1) } }
        out := { s.out with credits := s.out.credits ++ [(r, party)] } })
    let flexed : Calendar :=
      { s.calendar with flex := upd s.calendar.flex r fun xs => xs.eraseP fun y => y.credential == c }
    let running := (look s.rides r).state = .up ∨ (look s.rides r).state = .suspect
    (passOf c r s.guests = none → refused .refuseNoPass none) ∧
    (∀ p k w x, passOf c r s.guests = some p → p.place = .window k → windowOf s r k = some w →
      holderIn c w.holders = some x →
      let w' : Window := { w with
        held := w.held - x.party
        redeemed := w.redeemed + x.party
        holders := w.holders.eraseP fun y => y.credential == c }
      let redeemed : Calendar := { s.calendar with windows := upd s.calendar.windows r fun ws => ws.set k w' }
      (w.state = .future →
        let early := (rideProfile s r).early
        (∀ d, 0 < d → w.start = early + minuteNow s + d → refused .refuseEarly (some d)) ∧
        (w.start = early + minuteNow s → refused .refuseEarly (some 1)) ∧
        (w.start < early + minuteNow s → refused .refuseEarly (some 1))) ∧
      (w.state = .redeemable → admitted .admitPass x.party redeemed) ∧
      (w.state = .past → refused .refuseExpired none) ∧
      (w.state = .lost → running → admitted .admitFlex x.party redeemed) ∧
      (w.state = .lost → (look s.rides r).state = .down → refused .refuseRideDown none) ∧
      (w.state = .lost → (look s.rides r).state = .closed → refused .refuseRideClosed none)) ∧
    (∀ p x, passOf c r s.guests = some p → p.place = .flex → holderIn c (look s.calendar.flex r) = some x →
      (running → admitted .admitFlex x.party flexed) ∧
      ((look s.rides r).state = .down → refused .refuseRideDown none) ∧
      ((look s.rides r).state = .closed → refused .refuseRideClosed none))

/-! ## The standby tallies and the posted values -/

/-- R135, R136: a standby hand-off of `h` guests joins the newest mark if that is younger than 30 seconds and has room, else
a new mark joins, else the newest mark takes what brings it to 255 and the rest sets TALLY_SATURATED. R137, R138: a
dispatch hand-off takes `n` guests from the oldest marks; each mark emptied is an observation, guests beyond the marks are
unseen boarders, and `n` joins the newest bucket of the rate history. Both are discarded outside the day. -/
def Obligations.TallyHandoffs : Prop :=
  (∀ (i : Nat) (h : StandbyHandoff) (s : State), s.resetLow = false → s.out.standbys[i]? = some h →
    let s1 : State := { s with out := { s.out with standbys := s.out.standbys.eraseIdx i } }
    let y := look s.tallies h.ride
    let becomes (marks : List Mark) : State := { s1 with tallies := put s.tallies h.ride { y with marks := marks } }
    (inDay s.day.phase = false → exec (.standbyHandoff i) s = .next s1) ∧
    (inDay s.day.phase = true → y.marks = [] → exec (.standbyHandoff i) s = .next (becomes [⟨h.time, h.headCount⟩])) ∧
    ∀ ms m, inDay s.day.phase = true → y.marks = ms ++ [m] →
      let joins := h.time - m.entry < 30 ∧ m.count + h.headCount ≤ 255
      let counted := min h.headCount (255 - m.count)
      (joins → exec (.standbyHandoff i) s = .next (becomes (ms ++ [⟨m.entry, m.count + h.headCount⟩]))) ∧
      (¬joins → y.marks.length < 256 →
        exec (.standbyHandoff i) s = .next (becomes (y.marks ++ [⟨max h.time m.entry, h.headCount⟩]))) ∧
      (¬joins → 256 ≤ y.marks.length → h.headCount ≤ counted →
        exec (.standbyHandoff i) s = .next (becomes (ms ++ [⟨m.entry, m.count + counted⟩]))) ∧
      (¬joins → 256 ≤ y.marks.length → counted < h.headCount →
        exec (.standbyHandoff i) s = .next (flagged { s1 with
          tallies := put s.tallies h.ride { y with marks := ms ++ [⟨m.entry, m.count + counted⟩], saturated := true } }
          [.tallySaturated]))) ∧
  ∀ (r : Ride) (h : DispatchHandoff) (before after : List DispatchHandoff) (s : State), s.resetLow = false →
    s.out.dispatches = before ++ h :: after → h.ride = r → (∀ x ∈ before, x.ride ≠ r) →
    let s1 : State := { s with out := { s.out with dispatches := before ++ after } }
    let y := look s.tallies r
    (inDay s.day.phase = false → exec (.dispatchHandoff r) s = .next s1) ∧
    ∀ gone left, inDay s.day.phase = true → y.marks = gone ++ left → (∀ m ∈ y.marks, 1 ≤ m.count) →
      let n := (gone.map Mark.count).sum
      let becomes (marks : List Mark) (unseen : Nat) : State := { s1 with
        tallies := put s.tallies r { y with
          marks := marks
          lastObserved := match gone.getLast? with
            | some g => some ⟨(h.time - g.entry + 59) / 60, h.time⟩
            | none => y.lastObserved
          buckets := match y.buckets with
            | b :: bs => min 65535 (b + h.standbyPart) :: bs
            | [] => []
          saturated := y.saturated && decide (256 ≤ marks.length) }
        management := { s.management with counts := upd s.management.counts r fun c =>
          { c with unseenBoarders := min 16777215 (c.unseenBoarders + unseen) } } }
      (left = [] → n ≤ h.standbyPart →
        exec (.dispatchHandoff r) s = .next (becomes [] (h.standbyPart - n))) ∧
      ∀ m ms, left = m :: ms → n ≤ h.standbyPart → h.standbyPart < n + m.count →
        exec (.dispatchHandoff r) s = .next (becomes (⟨m.entry, n + m.count - h.standbyPart⟩ :: ms) 0)

/-- R146: a state hand-off, the oldest outstanding one of the ride (log 41), sets the posted value of the state it carries, UP
with a new estimate, in the day alone; a change is handed on. R175: a posted value becomes the held value; a state hand-off makes the Board Composer read the ride's state
as it stands, and UP leaves the held value. R179: a changed held value is a change for the boards whose range has the ride, and
a change reaches its boards one after the other: those that the command names, in its order, then the others in index
order (log 18). -/
def Obligations.PostedAndHeldValues : Prop :=
  (∀ (r : Ride) (st : RideState) (before after : List (Ride × RideState)) (s : State), s.resetLow = false →
    s.out.tallyStates = before ++ (r, st) :: after → (∀ x ∈ before, x.1 ≠ r) →
    let s1 : State := { s with out := { s.out with tallyStates := before ++ after } }
    let y := look s.tallies r
    let e := look s.rideTable r
    let becomes (y' : Tally) : State := { s1 with
      tallies := put s.tallies r y'
      out := { s1.out with
        posted := if y.posted = y'.posted then s.out.posted else s.out.posted ++ [(r, y'.posted)] } }
    let est := estimateOf (clockNow s) e.inEffect (look s.monitors r).throttle y
    (inDay s.day.phase = false → exec (.tallyStateHandoff r) s = .next s1) ∧
    (inDay s.day.phase = true →
      (st = .up → exec (.tallyStateHandoff r) s =
        .next (becomes { y with estimate := est, posted := postedForUp e.postingCurve est })) ∧
      (st = .suspect → exec (.tallyStateHandoff r) s = .next (becomes { y with posted := .paused })) ∧
      (st = .down → exec (.tallyStateHandoff r) s = .next (becomes { y with posted := .down })) ∧
      (st = .closed → exec (.tallyStateHandoff r) s = .next (becomes { y with posted := .closed })))) ∧
  (∀ (r : Ride) (v : Posted) (before after : List (Ride × Posted)) (order : List BoardIx) (s : State),
    s.resetLow = false → s.out.posted = before ++ (r, v) :: after → (∀ x ∈ before, x.1 ≠ r) →
    exec (.postedValueHandoff r order) s =
      .next (heldValueSet r v order { s with out := { s.out with posted := before ++ after } })) ∧
  (∀ (r : Ride) (before after : List Ride) (order : List BoardIx) (s : State), s.resetLow = false →
    s.out.boardStates = before ++ r :: after → r ∉ before →
    let s1 : State := { s with out := { s.out with boardStates := before ++ after } }
    let sets (v : Posted) : Prop := exec (.boardStateHandoff r order) s = .next (heldValueSet r v order s1)
    ((look s.rides r).state = .up → exec (.boardStateHandoff r order) s = .next s1) ∧
    ((look s.rides r).state = .down → sets .down) ∧ ((look s.rides r).state = .closed → sets .closed) ∧
    ((look s.rides r).state = .suspect → sets .paused) ∧ ((look s.rides r).state = .off → sets .off)) ∧
  ∀ (r : Ride) (v : Posted) (order : List BoardIx) (s : State),
    (look s.heldValues r = v → heldValueSet r v order s = s) ∧
    (look s.heldValues r ≠ v → heldValueSet r v order s =
      (((order ++ (List.finRange 64).filter fun b => decide (b ∉ order)).filter fun b =>
        decide ((look s.boardTable b).firstRide ≤ r.val ∧
          r.val < (look s.boardTable b).firstRide + (look s.boardTable b).rideCount)).foldl
        (fun u b => boardChanged b u) { s with heldValues := put s.heldValues r v })) ∧
    (∀ p : BoardIx → Bool, boardsChanged order p s =
      (((order ++ (List.finRange 64).filter fun b => decide (b ∉ order)).filter p).foldl
        (fun u b => boardChanged b u) s)) ∧
    (∀ b, boardChanged b (boardChanged b s) = boardChanged b s) ∧
    ∃ t, t = heldValueSet r v order s ∧
      t = { s with
        heldValues := put s.heldValues r v
        boards := t.boards
        fieldPort := { s.fieldPort with partQueue := t.fieldPort.partQueue } } ∧
      s.fieldPort.partQueue <+: t.fieldPort.partQueue ∧
      ∀ b : BoardIx, (r.val < (look s.boardTable b).firstRide ∨
        (look s.boardTable b).firstRide + (look s.boardTable b).rideCount ≤ r.val) → look t.boards b = look s.boards b

/-! ## Signboards -/

/-- R178, R179, R181: a change for a LIVE board that is neither pending nor deferred, is used, and whose live content differs
from what was last sent: its frame is written at once if the spacing allows, the board is deferred if 96 frames stand in the
FIELD part output queue, and it becomes pending if the spacing does not allow. Any other change does nothing.
R178: BOARD_MODE is judged by index, mode and phase; the present mode changes nothing; HOLD freezes the last-sent content
(from BLANK too, where no blank frame was written: log 40); LIVE makes a live frame due, and BLANK a blank one
unless a blank frame was sent last (a board that was sent nothing counts as not blank, log 17). A due frame is written, made pending or deferred as R177 and R181 say.
R176: live content is one entry for each ride of the board's range, in index order, but for those held OFF, the first 12 at
most, with the ride's label, its held value and the alert marker; HOLD carries the frozen content, or is blank without one. -/
def Obligations.Signboards : Prop :=
  (∀ (b : BoardIx) (s : State),
     let x := look s.boards b
     let e := look s.boardTable b
     let c := liveContent s b
     let free := x.spacing = none ∨ ∃ n, x.spacing = some n ∧ 2 ≤ n
     let due := x.mode = .live ∧ x.pending = false ∧ x.deferred = false ∧ e.address ≠ 0 ∧ x.lastSent ≠ some c
     (¬due → boardChanged b s = s) ∧
     (due → free → s.fieldPort.partQueue.length < 96 → boardChanged b s = { s with
       fieldPort := { s.fieldPort with partQueue := s.fieldPort.partQueue ++ [⟨e.address, .boardFrame c⟩] }
       boards := put s.boards b
         { x with lastSent := some c, spacing := some 0, refresh := 0, pending := false, deferred := false } }) ∧
     (due → free → 96 ≤ s.fieldPort.partQueue.length → boardChanged b s =
       { s with boards := put s.boards b { x with refresh := 0, pending := false, deferred := true } }) ∧
     (due → ¬free → boardChanged b s = { s with boards := put s.boards b { x with pending := true } })) ∧
  (∀ (b : BoardIx) (s : State),
     let x := look s.boards b
     let e := look s.boardTable b
     let shown := (List.finRange 48).filter fun r =>
       decide (e.firstRide ≤ r.val ∧ r.val < e.firstRide + e.rideCount ∧ look s.heldValues r ≠ .off)
     let alert (v : Posted) : Bool :=
       match v with
       | .wait m => decide (0 < e.alertMinutes ∧ e.alertMinutes ≤ m)
       | .over => decide (0 < e.alertMinutes)
       | _ => false
     liveContent s b = .lines ((shown.take 12).map fun r =>
       { label := (look s.rideTable r).label, value := look s.heldValues r, alert := alert (look s.heldValues r) }) ∧
     (x.mode = .live → modeContent s b = liveContent s b) ∧
     (∀ c, x.mode = .hold → x.frozen = some c → modeContent s b = c) ∧
     (x.mode = .hold → x.frozen = none → modeContent s b = .blank) ∧
     (x.mode = .blank → modeContent s b = .blank)) ∧
  (∀ (e : MgmtEntry) (rest : List MgmtEntry) (index code : Nat) (s : State),
     mgmtHead s e rest → e.command = .boardMode index code →
     let s1 : State := { s with mgmtIntake := rest }
     let answers (x : MgmtResult) (u : State) : Prop :=
       exec .boardMode s = .next (mgmtFinish [mgmtReply e 0x0A { result := x }] u)
     (63 < index → answers .badIndex s1) ∧
     ∀ b : BoardIx, index = b.val →
       let x := look s.boards b
       let a := (look s.boardTable b).address
       let free := x.spacing = none ∨ ∃ n, x.spacing = some n ∧ 2 ≤ n
       let becomes (x' : Board) : State := { s1 with boards := put s.boards b x' }
       let due (x' : Board) (c : BoardContent) : Prop :=
         (free → s.fieldPort.partQueue.length < 96 → answers .done { s1 with
           fieldPort := { s.fieldPort with partQueue := s.fieldPort.partQueue ++ [⟨a, .boardFrame c⟩] }
           boards := put s.boards b
             { x' with lastSent := some c, spacing := some 0, refresh := 0, pending := false, deferred := false } }) ∧
         (free → 96 ≤ s.fieldPort.partQueue.length →
           answers .done (becomes { x' with refresh := 0, pending := false, deferred := true })) ∧
         (¬free → answers .done (becomes { x' with pending := true }))
       (code ∉ [1, 2, 3] → answers .badValue s1) ∧
       ∀ m, (code, m) ∈ [(1, BoardModeKind.live), (2, .hold), (3, .blank)] →
         (s.day.phase = .checking → answers .busy s1) ∧
         (s.day.phase ≠ .checking → x.mode = m → answers .done s1) ∧
         (s.day.phase ≠ .checking → x.mode ≠ m →
           (m = .hold → answers .done (becomes { x with mode := .hold, frozen := x.lastSent, pending := false })) ∧
           (m = .live → a ≠ 0 → x.deferred = false → due { x with mode := .live, frozen := none } (liveContent s b)) ∧
           (m = .live → a = 0 ∨ x.deferred = true → answers .done (becomes { x with mode := .live, frozen := none })) ∧
           (m = .blank → a ≠ 0 → x.deferred = false → x.lastSent ≠ some .blank →
             due { x with mode := .blank, frozen := none } .blank) ∧
           (m = .blank → a = 0 ∨ x.deferred = true ∨ x.lastSent = some .blank →
             answers .done (becomes { x with mode := .blank, frozen := none, pending := false }))))

/-! ## Hand-offs to the Calendar, the Condition Monitor, the Walker and the Pass Engine -/

/-- R47, R48: a state hand-off of DOWN or CLOSED makes every REDEEMABLE window of the ride LOST and hands on one DISPLACE item
for each of them with holders, in window order; UP and SUSPECT change no window. R40, R41, R158: a recomputation gives
every FUTURE window that starts at or after now + LEAD its C and L from the claim, and leaves the others. -/
def Obligations.CalendarHandoffs : Prop :=
  (∀ (r : Ride) (st : RideState) (before after : List (Ride × RideState)) (s : State), s.resetLow = false →
    s.out.calendarStates = before ++ (r, st) :: after → (∀ x ∈ before, x.1 ≠ r) →
    let s1 : State := { s with out := { s.out with calendarStates := before ++ after } }
    let ws := look s.calendar.windows r
    let items := (ws.zipIdx.filter fun x => decide (x.1.state = .redeemable ∧ x.1.holders ≠ [])).map fun x =>
      (⟨r, x.2, .displace⟩ : WorkItem)
    (st ≠ .down → st ≠ .closed → exec (.calendarStateHandoff r) s = .next s1) ∧
    (st = .down ∨ st = .closed → exec (.calendarStateHandoff r) s = .next { s1 with
      calendar := { s.calendar with windows := put s.calendar.windows r (ws.map fun w =>
        if w.state = .redeemable then { w with state := .lost } else w) }
      out := { s1.out with workItems := if items = [] then s.out.workItems else s.out.workItems ++ [items] } })) ∧
  ∀ (r : Ride) (h : RecomputationClaim) (before after : List RecomputationClaim) (s : State), s.resetLow = false →
    s.out.recomputations = before ++ h :: after → h.ride = r → (∀ x ∈ before, x.ride ≠ r) →
    let p := look s.calendar.profiles (look s.rideTable r).profile
    let base := h.fields.hourlyCapacity * p.windowLength * (h.fields.passShare - h.throttle) / 6000
    let c := min 400 (base * h.derate * (100 + h.overbook) / 10000)
    exec (.recomputation r) s = .next { s with
      calendar := { s.calendar with windows := put s.calendar.windows r ((look s.calendar.windows r).map fun w =>
        if w.state = .future ∧ minuteNow s + p.lead ≤ w.start then
          { w with capacity := c, limit := c - c * h.fields.reserveShare / 100 } else w) }
      out := { s.out with recomputations := before ++ after } }

/-- R150: a dispatch record joins the bucket of its minute, after rotations if the minute is newer than the newest, and the
newest bucket if the history has none for it; outside the day it is discarded.
R151 to R157: an evaluation brings the capacity fields into effect, computes THROUGHPUT and MERGE_LOAD over the fifteen
minutes before the window's end and NO_SHOW over the last four PAST windows, updates the attribute records, derate,
overbook and throttle, sets ATTR_EXCEEDED once if an attribute enters exceeded, and presents a recomputation. Outside the
day it is discarded. That a throttle above PASS_SHARE comes down to it with MERGE_LOAD exceeded and a THROTTLE_STEP of 0 is the
model's choice (log 39). -/
def Obligations.ConditionMonitor : Prop :=
  (∀ (r : Ride) (d : DispatchRecord) (before after : List DispatchRecord) (s : State), s.resetLow = false →
     s.out.records = before ++ d :: after → d.ride = r → (∀ x ∈ before, x.ride ≠ r) →
     let s1 : State := { s with out := { s.out with records := before ++ after } }
     let m := look s.monitors r
     let minute := d.time / 60
     let add (b : DispatchBucket) : DispatchBucket :=
       ⟨min 65535 (b.dispatched + d.riders), min 65535 (b.passes + d.passPart)⟩
     let becomes (m' : Monitor) : State := { s1 with monitors := put s.monitors r m' }
     (inDay s.day.phase = false → exec (.dispatchRecord r) s = .next s1) ∧
     ∀ b bs, inDay s.day.phase = true → m.buckets = b :: bs →
       (minute ≤ m.newestMinute → m.newestMinute - minute < m.buckets.length →
         exec (.dispatchRecord r) s =
           .next (becomes { m with buckets := m.buckets.modify (m.newestMinute - minute) add })) ∧
       (minute ≤ m.newestMinute → m.buckets.length ≤ m.newestMinute - minute →
         exec (.dispatchRecord r) s = .next (becomes { m with buckets := add b :: bs })) ∧
       (m.newestMinute < minute →
         exec (.dispatchRecord r) s = .next (becomes { m with
           newestMinute := minute
           buckets := add ⟨0, 0⟩ ::
             (List.replicate (minute - m.newestMinute - 1) (⟨0, 0⟩ : DispatchBucket) ++ m.buckets).take bs.length }))) ∧
  (∀ (r : Ride) (h : EvaluationHandoff) (before after : List EvaluationHandoff) (s : State), s.resetLow = false →
     s.out.evaluations = before ++ h :: after → h.ride = r → (∀ x ∈ before, x.ride ≠ r) →
     let s1 : State := { s with out := { s.out with evaluations := before ++ after } }
     let e := look s.rideTable r
     let f := e.written
     let m := look s.monitors r
     let span := m.buckets.zipIdx.filter fun x =>
       decide (x.2 ≤ m.newestMinute ∧ h.stop - 15 ≤ m.newestMinute - x.2 ∧ m.newestMinute - x.2 < h.stop)
     let d := (span.map fun x => x.1.dispatched).sum
     let p := (span.map fun x => x.1.passes).sum
     let past := (((look s.calendar.windows r).filter fun w => decide (w.state = .past)).reverse).take 4
     let gone := (past.map Window.expired).sum
     let came := (past.map Window.redeemed).sum
     let tv := if f.hourlyCapacity = 0 then 200 else min 200 (d * 4 * 100 / f.hourlyCapacity)
     let nv := if came + gone = 0 then 0 else gone * 100 / (came + gone)
     let gv := if d = 0 then 0 else p * 100 / d
     let tx := decide (0 < f.throughputThreshold ∧ tv < f.throughputThreshold)
     let nx := decide (0 < f.noshowThreshold ∧ f.noshowThreshold < nv)
     let gx := decide (0 < f.mergeloadThreshold ∧ f.mergeloadThreshold < gv)
     let next (a : AttributeRecord) (value worst : Nat) (exceeded : Bool) : AttributeRecord :=
       ⟨some value, some worst, exceeded,
         if exceeded = true ∧ a.exceeded = false then min 65535 (a.exceedCount + 1) else a.exceedCount⟩
     let derate := if tx then min 100 (max tv f.derateFloor) else 100
     let overbook := if nx then min nv f.overbookCap else 0
     let throttle := if gx then min (m.throttle + f.throttleStep) f.passShare else m.throttle - f.throttleStep
     let enters := (tx && !m.throughput.exceeded) || (nx && !m.noShow.exceeded) || (gx && !m.mergeLoad.exceeded)
     (inDay s.day.phase = false → exec (.evaluation r) s = .next s1) ∧
     (inDay s.day.phase = true → exec (.evaluation r) s = .next { s1 with
       rideTable := put s.rideTable r { e with inEffect := f }
       monitors := put s.monitors r { m with
         throughput := next m.throughput tv ((m.throughput.worst.map fun x => min tv x).getD tv) tx
         noShow := next m.noShow nv ((m.noShow.worst.map fun x => max nv x).getD nv) nx
         mergeLoad := next m.mergeLoad gv ((m.mergeLoad.worst.map fun x => max gv x).getD gv) gx
         derate := derate
         overbook := overbook
         throttle := throttle
         evaluations := m.evaluations + 1
         lastEvaluation := some (h.window, h.stop) }
       out := { s1.out with
         flags := if enters then s.out.flags ++ [.attrExceeded] else s.out.flags
         recomputations := s.out.recomputations ++ [⟨r, derate, overbook, throttle, f⟩] } }))

/-- R48, R115, R116: the Walker takes the items of one hand-off, one behind another, to the tail of its work list, raises the
displacing count of each DISPLACE item's ride, and in IDLE takes the head item into progress; outside the day the items are
discarded. R90: the end of a displacement makes
the entries that wait for the ride servable, a change to LAST_CALL all of them, but for those whose expiry is already due
(log 13); a Pass Engine that waits takes neither (R80), they stay outstanding (log 29), and the commands change nothing
(log 1). -/
def Obligations.WorkItemsAndReleases : Prop :=
  (∀ (r : Ride) (k : Nat) (i : WorkItem) (is : List WorkItem) (before after : List (List WorkItem)) (s : State),
    s.resetLow = false → s.out.workItems = before ++ (i :: is) :: after → (∃ j ∈ i :: is, j.ride = r ∧ j.window = k) →
    (∀ b ∈ before, ∀ j ∈ b, ¬(j.ride = r ∧ j.window = k)) →
    let s1 : State := { s with out := { s.out with workItems := before ++ after } }
    ∃ counted : Table 48 Nat,
      (∀ q : Ride, look counted q = look s.walker.displacing q +
        ((i :: is).filter fun j => decide (j.kind = .displace ∧ j.ride = q)).length) ∧
      (inDay s.day.phase = false → exec (.workItemHandoff r k) s = .next s1) ∧
      (inDay s.day.phase = true → s.walker.waiting.isSome = true ∨ s.walker.item.isSome = true →
        exec (.workItemHandoff r k) s = .next { s1 with
          walker := { s.walker with workList := s.walker.workList ++ i :: is, displacing := counted } }) ∧
      (inDay s.day.phase = true → s.walker.waiting = none → s.walker.item = none → s.walker.workList = [] →
        exec (.workItemHandoff r k) s =
          .next { s1 with walker := { s.walker with item := some i, workList := is, displacing := counted } })) ∧
  (∀ (r : Ride) (before after : List Ride) (s : State), s.resetLow = false →
    s.out.displacementEnds = before ++ r :: after → r ∉ before →
    (s.engine.outbox ≠ [] → exec (.endOfDisplacement r) s = .next s) ∧
    (s.engine.outbox = [] → exec (.endOfDisplacement r) s = .next { s with
      engine := { s.engine with heldList := s.engine.heldList.map fun x =>
        if x.ride = r ∧ x.expiring = false then { x with servable := true } else x }
      out := { s.out with displacementEnds := before ++ after } })) ∧
  ∀ (n : Nat) (s : State), s.resetLow = false → s.out.lastCalls = n + 1 →
    (s.engine.outbox ≠ [] → exec .lastCallRelease s = .next s) ∧
    (s.engine.outbox = [] → exec .lastCallRelease s = .next { s with
      engine := { s.engine with heldList := s.engine.heldList.map fun x =>
        if x.expiring = false then { x with servable := true } else x }
      out := { s.out with lastCalls := n } })

/-! ## The Walker -/

/-- R51, R118, R119: a DISPLACE step takes the head holder out of the lost window; it shifts the pass into the first later
FUTURE window with room under C where DISPLACE_POLICY is SHIFT and MOVES is below 2, and else puts it on the flex list. R52,
R120: an EXPIRE step takes the head holder out of the past window and the pass out of the Guest Table. An empty window
completes the item.
R117, R121, R122, R123: a step's PASS_CHANGE joins the TRUNK part output queue, or the Walker waits with it. A step that
leaves holders does no more. The last step completes its item: a DISPLACE item's ride loses one of its displacing count
and, at 0, its end of displacement is handed on; then a Walker that does not wait takes the next item, or sets WALK_IDLE.
That the places of producers that wait are taken off the room is log 11. -/
def Obligations.WalkerSteps : Prop :=
  (∀ (i : WorkItem) (w : Window) (s : State), s.resetLow = false → s.walker.waiting = none → s.walker.item = some i →
     windowOf s i.ride i.window = some w →
     let r := i.ride
     let ws := look s.calendar.windows r
     let gateway := s.day.park.gatewayAddress
     let label := (look s.rideTable r).label
     let change (h : Holder) (reason : ChangeReason) (target : Option (Nat × Nat)) (moves : Nat) : Option PartFrame :=
       if gateway = 0 then none
       else some ⟨gateway, .passChange h.credential label h.party reason w.start target moves⟩
     (i.kind = .displace →
       (w.holders = [] → exec .displaceStep s = .next (finishStep i none 0 s)) ∧
       ∀ h rest p, w.holders = h :: rest → passOf h.credential r s.guests = some p →
         let shifting := (look s.rideTable r).displacePolicy = .shift ∧ p.moves < 2
         let roomy (v : Window) : Prop := v.state = .future ∧ v.booked + h.party ≤ v.capacity
         let left : Window :=
           { w with held := w.held - h.party, movedOut := w.movedOut + h.party, holders := rest }
         (∀ k v, shifting → i.window < k → windowOf s r k = some v → roomy v →
           (∀ j u, i.window < j → j < k → windowOf s r j = some u → ¬roomy u) →
           let joined : Window :=
             { v with booked := v.booked + h.party, held := v.held + h.party, holders := v.holders ++ [h] }
           ∃ t, exec .displaceStep s = .next (finishStep i (change h .shifted (some (v.start, v.stop)) (p.moves + 1))
               rest.length t) ∧
             t = { s with
               calendar := { s.calendar with windows := put s.calendar.windows r ((ws.set i.window left).set k joined) }
               guests := changePass h.credential r (fun p => { p with place := .window k, moves := p.moves + 1 }) s.guests
               management := { s.management with counts := upd s.management.counts r fun c =>
                 { c with shifted := min 16777215 (c.shifted + 1) } } }) ∧
         (¬shifting ∨ (∀ j u, i.window < j → windowOf s r j = some u → ¬roomy u) →
           ∃ t, exec .displaceStep s = .next (finishStep i (change h .flexed none p.moves) rest.length t) ∧
             t = { s with
               calendar := { s.calendar with
                 windows := put s.calendar.windows r (ws.set i.window left)
                 flex := upd s.calendar.flex r fun fs => fs ++ [h] }
               guests := changePass h.credential r (fun p => { p with place := .flex }) s.guests
               management := { s.management with counts := upd s.management.counts r fun c =>
                 { c with flexed := min 16777215 (c.flexed + 1) } } })) ∧
     (i.kind = .expire →
       (w.holders = [] → exec .expireStep s = .next (finishStep i none 0 s)) ∧
       ∀ h rest, w.holders = h :: rest →
         let left : Window :=
           { w with held := w.held - h.party, expired := w.expired + h.party, holders := rest }
         ∃ t, exec .expireStep s = .next (finishStep i (change h .expired none 0) rest.length t) ∧
           t = { s with
             calendar := { s.calendar with windows := put s.calendar.windows r (ws.set i.window left) }
             guests := dropPass h.credential r s.guests
             management := { s.management with counts := upd s.management.counts r fun c =>
               { c with expired := min 16777215 (c.expired + 1) } } })) ∧
  (∀ (i : WorkItem) (f : Option PartFrame) (s : State), s.walker.waiting = none → s.walker.item = some i →
     let room := s.trunkPort.partQueue.length + s.trunkPort.waiters.length < 128
     let sent (u : State) : State := match f with
       | none => u
       | some g =>
         if room then { u with trunkPort := { s.trunkPort with partQueue := s.trunkPort.partQueue ++ [g] } }
         else { u with
           trunkPort := { s.trunkPort with waiters := s.trunkPort.waiters ++ [.walker] }
           walker := { u.walker with waiting := some g } }
     let waits := f.isSome = true ∧ ¬room
     let n := look s.walker.displacing i.ride - 1
     let completed : State :=
       if i.kind = .displace then
         { s with
           walker := { s.walker with item := none, displacing := put s.walker.displacing i.ride n }
           out := { s.out with displacementEnds :=
             if n = 0 then s.out.displacementEnds ++ [i.ride] else s.out.displacementEnds } }
       else { s with walker := { s.walker with item := none } }
     (∀ left, 0 < left → finishStep i f left s = sent s) ∧
     (waits → finishStep i f 0 s = sent completed) ∧
     (¬waits → s.walker.workList = [] → finishStep i f 0 s = flagged (sent completed) [.walkIdle]) ∧
     (¬waits → ∀ j js, s.walker.workList = j :: js → finishStep i f 0 s = { sent completed with
       walker := { completed.walker with workList := js, item := some j } }))

/-! ## Requests -/

/-- R82, R83: FIXED picks the kiosk queue's head whenever there is one, else the remote queue's. SHARE picks from the only
non-empty queue, or from the last queue while its run is below RUN_LIMIT and from the other one after, the kiosk queue
with no last queue. -/
def Obligations.ArbiterPicks : Prop :=
  ∀ s : State,
    let kiosk := s.engine.kiosk
    let remote := s.engine.remote
    let limit := s.day.park.runLimit
    (kiosk = [] → remote = [] → pickQueue s = none) ∧
    (kiosk ≠ [] → remote = [] → pickQueue s = some .kiosk) ∧
    (kiosk = [] → remote ≠ [] → pickQueue s = some .remote) ∧
    (kiosk ≠ [] → remote ≠ [] →
      (s.day.park.arbiterMode = .fixed → pickQueue s = some .kiosk) ∧
      (s.day.park.arbiterMode = .share →
        (s.engine.lastQueue = none → pickQueue s = some .kiosk) ∧
        (s.engine.lastQueue = some .kiosk → s.engine.run < limit → pickQueue s = some .kiosk) ∧
        (s.engine.lastQueue = some .kiosk → limit ≤ s.engine.run → pickQueue s = some .remote) ∧
        (s.engine.lastQueue = some .remote → s.engine.run < limit → pickQueue s = some .remote) ∧
        (s.engine.lastQueue = some .remote → limit ≤ s.engine.run → pickQueue s = some .kiosk)))

/-- R50, R64, R65, R66, R85, R86, R87, R92, R94: how a PASS_REQUEST is judged. Outside PREOPEN and OPEN it is PHASE_CLOSED,
with a field out of range BAD_REQUEST. The first listed ride without a reason of R86 is the candidate: if it is displacing
the request is set aside. Otherwise the first ride with neither such a reason nor SOLD_OUT is granted, in the first window
that meets the conditions, with the reasons of the rides before it; or every ride has a reason and the request is REFUSED.
Each reason counts for its ride, and each failed room check sets GUEST_FULL. -/
def Obligations.RequestsJudged : Prop :=
  ∀ (o : Origin) (c : Credential) (party count : Nat) (labels : List Label) (earliest latest : Option Nat) (s : State),
    let judged := judgeRequest o c party count labels earliest latest s
    let open_ := s.day.phase = .preopen ∨ s.day.phase = .opened
    let bad := c = 0 ∨ c = BitVec.allOnes 48 ∨ party = 0 ∨ 8 < party ∨ count = 0 ∨ 3 < count ∨ ¬labels.Nodup ∨
      (∃ x, earliest = some x ∧ 1439 < x) ∨ (∃ x, latest = some x ∧ 1439 < x) ∨
      ∃ x y, earliest = some x ∧ latest = some y ∧ y < x
    let counted (reasons : List (Option Ride × Reason)) (granted : Option Ride) (t : State) : Prop :=
      ∀ r : Ride,
        let n := (reasons.filter fun x => x.1 = some r).length
        let k := look s.management.counts r
        look t.management.counts r = { k with
          refused := if n = 0 then k.refused else min 16777215 (k.refused + n)
          granted := if granted = some r then min 16777215 (k.granted + 1) else k.granted }
    let full (reasons : List (Option Ride × Reason)) : List Flag :=
      List.replicate (reasons.filter fun x => x.2 = .tableFull).length .guestFull
    let candidate := labels.find? fun l => (rideReason s c l).isNone
    (¬open_ → judged = (.reply .phaseClosed, s)) ∧
    (open_ → bad → judged = (.reply .badRequest, s)) ∧
    (open_ → ¬bad →
      (∀ l r, candidate = some l → rideByLabel s l = some r → 0 < look s.walker.displacing r →
        judged = (.aside r, s)) ∧
      ((∀ l r, candidate = some l → rideByLabel s l = some r → look s.walker.displacing r = 0) →
        (∀ reasons, labels.map (searchReason s c party earliest latest) = reasons.map some →
          ∃ t, judged = (.reply (.refused (reasons.map Prod.snd)), t) ∧ counted reasons none t ∧
            t = { s with
              management := { s.management with counts := t.management.counts }
              out := { s.out with flags := s.out.flags ++ full reasons } }) ∧
        ∀ before l after reasons r k w, labels = before ++ l :: after →
          before.map (searchReason s c party earliest latest) = reasons.map some → rideReason s c l = none →
          rideByLabel s l = some r → windowOf s r k = some w → grantsTo s r party earliest latest w →
          (∀ j v, j < k → windowOf s r j = some v → ¬grantsTo s r party earliest latest v) →
          let joined : Window :=
            { w with booked := w.booked + party, held := w.held + party, holders := w.holders ++ [⟨c, party⟩] }
          let climbs : List Flag :=
            if guestOf c s.guests = none ∧ s.guests.length + 1 = 58983 then [.guestHigh] else []
          ∃ t, judged = (.reply (.grant l party w.start w.stop (reasons.map Prod.snd)), t) ∧ counted reasons (some r) t ∧
            t = { s with
              calendar := { s.calendar with windows := upd s.calendar.windows r fun ws => ws.set k joined }
              guests := addPass c ⟨r, party, .window k, 0, o, minuteNow s⟩ s.guests
              management := { s.management with counts := t.management.counts }
              out := { s.out with flags := s.out.flags ++ climbs ++ full reasons } }))

/-- R70, R80, R81, R84, R88, R91, R93, R95: the serves. While a reply waits, or a held entry is servable, no queue head
is served; while a reply waits, or none is servable, no held entry is (log 1). A PASS_REQUEST from a queue head is
judged and answered, or joins the held list, or is answered RETRY when that holds 8. A PASS_LIST is answered with the
guest's passes in order, each with its ride's label, its party, and the state, start and end of the window that holds
it, or FLEX. A servable held entry leaves the list and is judged afresh: answered, or back in its place. A reply goes to
its port's part output queue with the request's source and tag, or the Pass Engine waits with it (the room less the
places of those that wait: log 11); a queue serve that ends with one keeps the run. -/
def Obligations.RequestsServed : Prop :=
  (∀ s : State,
    (s.engine.outbox ≠ [] ∨ (∃ e ∈ s.engine.heldList, e.servable = true) →
      exec .passRequest s = .next s ∧ exec .passCancel s = .next s ∧ exec .passList s = .next s) ∧
    (s.engine.outbox ≠ [] ∨ (∀ e ∈ s.engine.heldList, e.servable = false) → exec .heldServe s = .next s)) ∧
  (∀ (o : Origin) (q : Request) (rest : List Request) (s : State), requestHead s o q rest →
    let s1 := setQueue (portOfOrigin o) rest s
    (∀ c party count labels ea la, q.body = .pass c party count labels ea la →
      (∀ x t, judgeRequest o c party count labels ea la s1 = (.reply x, t) →
        exec .passRequest s = .next (replyFromQueue o q x t)) ∧
      ∀ r t, judgeRequest o c party count labels ea la s1 = (.aside r, t) →
        (s.engine.heldList.length < 8 → exec .passRequest s = .next { s1 with
          engine := { s1.engine with heldList := s.engine.heldList ++ [⟨q, r, 0, false, false⟩] } }) ∧
        (8 ≤ s.engine.heldList.length → exec .passRequest s = .next (replyFromQueue o q .retry s1))) ∧
    ∀ c, q.body = .list c →
      (inDay s.day.phase = false → exec .passList s = .next (replyFromQueue o q .phaseClosed s1)) ∧
      (inDay s.day.phase = true → c = 0 ∨ c = BitVec.allOnes 48 ∨ guestOf c s.guests = none →
        exec .passList s = .next (replyFromQueue o q (.listed []) s1)) ∧
      ∀ g, inDay s.day.phase = true → c ≠ 0 → c ≠ BitVec.allOnes 48 → guestOf c s.guests = some g →
        ∃ xs, exec .passList s = .next (replyFromQueue o q (.listed xs) s1) ∧
          xs.map ListedPass.label = g.passes.map (fun p => (look s.rideTable p.ride).label) ∧
          xs.map ListedPass.party = g.passes.map Pass.party ∧
          xs.map ListedPass.state = g.passes.map (passState s) ∧ xs.map ListedPass.span = g.passes.map (passSpan s)) ∧
  (∀ (s : State) (p : Pass),
    (p.place = .flex → passState s p = .flex ∧ passSpan s p = none) ∧
    ∀ k w, p.place = .window k → windowOf s p.ride k = some w →
      passSpan s p = some (w.start, w.stop) ∧
      (w.state = .future → passState s p = .future) ∧ (w.state = .redeemable → passState s p = .redeemable) ∧
      (w.state = .past → passState s p = .past) ∧ (w.state = .lost → passState s p = .lost)) ∧
  (∀ (before : List HeldEntry) (e : HeldEntry) (after : List HeldEntry) (s : State), s.resetLow = false →
    s.engine.outbox = [] → s.engine.heldList = before ++ e :: after → (∀ x ∈ before, x.servable = false) →
    e.servable = true →
    let s1 : State := { s with engine := { s.engine with heldList := before ++ after } }
    ∀ c party count labels ea la, e.request.body = .pass c party count labels ea la →
      let judged := judgeRequest (match e.request.port with | .field => .kiosk | .trunk => .remote) c party count labels
        ea la s1
      (∀ x t, judged = (.reply x, t) → exec .heldServe s = .next (engineSend [replyFrame e.request x] t)) ∧
      ∀ r t, judged = (.aside r, t) → exec .heldServe s = .next { s1 with engine := { s1.engine with
        heldList := before ++ { e with ride := r, servable := false, expiring := false } :: after } }) ∧
  ∀ (o : Origin) (q : Request) (x : PassResult) (s : State), s.engine.outbox = [] →
    let ps := portOf s q.port
    let reply : PartFrame := ⟨q.source, .passReply q.tag x⟩
    let served : PassEngine := if s.engine.lastQueue = some o then { s.engine with run := min 15 (s.engine.run + 1) }
      else { s.engine with lastQueue := some o, run := 1 }
    (ps.partQueue.length + ps.waiters.length < 128 →
      engineSend [replyFrame q x] s = setPort s q.port { ps with partQueue := ps.partQueue ++ [reply] } ∧
      replyFromQueue o q x s =
        { setPort s q.port { ps with partQueue := ps.partQueue ++ [reply] } with engine := served }) ∧
    (128 ≤ ps.partQueue.length + ps.waiters.length →
      engineSend [replyFrame q x] s = { setPort s q.port { ps with waiters := ps.waiters ++ [.passEngine] } with
        engine := { s.engine with outbox := [(q.port, reply)] } } ∧
      replyFromQueue o q x s = { setPort s q.port { ps with waiters := ps.waiters ++ [.passEngine] } with
        engine := { served with outbox := [(q.port, reply)] } })

/-- R53, R71, R73: a PASS_CANCEL or a PASS_REVOKE takes the guest's pass for the ride out of its window, whose T and HELD fall
by the party, or off the flex list, and out of the Guest Table, and counts it cancelled. The reply carries the party and the
window's start, or FLEX. The checks that each makes first answer as its rule says and change nothing. -/
def Obligations.PassesRemoved : Prop :=
  let removal (s u : State) (c : Credential) (r : Ride) (party : Nat) (start : Option Nat) : Prop :=
    let counts := upd s.management.counts r fun k => { k with cancelled := min 16777215 (k.cancelled + 1) }
    let rest (cal : Calendar) : State := { s with
      calendar := cal, guests := dropPass c r s.guests, management := { s.management with counts := counts } }
    let without (w : Window) (n : Nat) : Window := { w with
      booked := w.booked - n
      held := w.held - n
      holders := w.holders.eraseP fun y => y.credential == c }
    (∃ p k w h, passOf c r s.guests = some p ∧ p.place = .window k ∧ windowOf s r k = some w ∧
      holderIn c w.holders = some h ∧ party = h.party ∧ start = some w.start ∧
      u = rest { s.calendar with windows := upd s.calendar.windows r fun ws => ws.set k (without w h.party) }) ∨
    ∃ p h, passOf c r s.guests = some p ∧ p.place = .flex ∧ holderIn c (look s.calendar.flex r) = some h ∧
      party = h.party ∧ start = none ∧
      u = rest { s.calendar with flex := upd s.calendar.flex r fun hs => hs.eraseP fun y => y.credential == c }
  (∀ (o : Origin) (q : Request) (rest : List Request) (c : Credential) (l : Label) (s : State), requestHead s o q rest →
    q.body = .cancel c l →
    let s1 := setQueue (portOfOrigin o) rest s
    (inDay s.day.phase = false → exec .passCancel s = .next (replyFromQueue o q .phaseClosed s1)) ∧
    (inDay s.day.phase = true → rideByLabel s l = none ∨ c = 0 ∨ c = BitVec.allOnes 48 ∨
        (∃ r, rideByLabel s l = some r ∧ passOf c r s.guests = none) →
      exec .passCancel s = .next (replyFromQueue o q .notFound s1)) ∧
    ∀ r party start u, inDay s.day.phase = true → rideByLabel s l = some r → c ≠ 0 → c ≠ BitVec.allOnes 48 →
      removal s1 u c r party start →
      exec .passCancel s = .next (replyFromQueue o q (.cancelled l party start) u)) ∧
  ∀ (e : MgmtEntry) (rest : List MgmtEntry) (index : Nat) (c : Credential) (s : State), mgmtHead s e rest →
    e.command = .passRevoke index c →
    let s1 : State := { s with mgmtIntake := rest }
    let answers (x : MgmtResult) : Prop :=
      exec .passRevoke s = .next (mgmtFinish [mgmtReply e 0x10 { result := x }] s1)
    (47 < index → answers .badIndex) ∧
    ∀ r : Ride, index = r.val →
      (c = 0 ∨ c = BitVec.allOnes 48 → answers .badValue) ∧
      (c ≠ 0 → c ≠ BitVec.allOnes 48 →
        (s.day.phase = .checking → answers .busy) ∧
        (s.day.phase ≠ .checking → s.day.phase = .night ∨ (look s.rides r).state = .off ∨ passOf c r s.guests = none →
          answers .notFound) ∧
        ∀ party start u, inDay s.day.phase = true → (look s.rides r).state ≠ .off → removal s1 u c r party start →
          exec .passRevoke s = .next (mgmtFinish
            [mgmtReply e 0x10 { result := .done, fields := removedBytes ⟨party, start⟩ }] u))

/-- R20, R61, R65, R67: the lookups and the changes of the Guest Table. A label, controller or reader lookup finds the match of
lowest index in the table as it stands, in NIGHT too (log 42). Adding a pass puts it at the tail of its guest's list and leaves every other guest's passes; dropping one
takes it from its guest's list, and the record with it if it was the last. -/
def Obligations.LookupsAndGuestTable : Prop :=
  (∀ s : State,
    (∀ l r, rideByLabel s l = some r ↔ (look s.rideTable r).enabled = true ∧ (look s.rideTable r).label = l ∧
      ∀ q : Ride, q < r → (look s.rideTable q).enabled = true → (look s.rideTable q).label ≠ l) ∧
    (∀ a r, rideByController s a = some r ↔ (look s.rideTable r).enabled = true ∧
      (look s.rideTable r).controllerAddress = a ∧
      ∀ q : Ride, q < r → (look s.rideTable q).enabled = true → (look s.rideTable q).controllerAddress ≠ a) ∧
    ∀ a i, readerByAddress s a = some i ↔ (look s.readers i).used = true ∧ (look s.readers i).address = a ∧
      ∀ j : ReaderIx, j < i → (look s.readers j).used = true → (look s.readers j).address ≠ a) ∧
  ∀ (gs : List Guest) (c : Credential), gs.Pairwise (fun a b => a.credential.toNat < b.credential.toNat) →
    (∀ p, guestOf c (addPass c p gs) = some ⟨c, ((guestOf c gs).elim [] Guest.passes) ++ [p]⟩) ∧
    (∀ p d, d ≠ c → guestOf d (addPass c p gs) = guestOf d gs) ∧
    (∀ p, (addPass c p gs).length = if guestOf c gs = none then gs.length + 1 else gs.length) ∧
    (∀ r d, d ≠ c → guestOf d (dropPass c r gs) = guestOf d gs) ∧
    (∀ r, guestOf c gs = none → dropPass c r gs = gs) ∧
    (∀ r g, guestOf c gs = some g → (∀ p ∈ g.passes, p.ride = r) → guestOf c (dropPass c r gs) = none) ∧
    ∀ r g, guestOf c gs = some g → (∃ p ∈ g.passes, p.ride ≠ r) →
      guestOf c (dropPass c r gs) = some ⟨c, g.passes.filter fun p => p.ride != r⟩

/-! ## The messages -/

/-- R196 to R201: a frame that the part writes has the header, the padding and the body, item by item, of its kind's layout, and
it is read back, by the reading that the Classifier gives to a received frame, as a well-formed queue-net frame of its
destination, the node address, its kind and its body; it has at least 60 bytes. The counts that one byte carries are below
256.
The reading of a received frame: the Ethernet type, the version, the kind, the length that the kind's layout gives (log 19
for replies), and the fields of the requests and of the management commands. -/
def Obligations.FramesRoundTrip : Prop :=
  (∀ (node dst : Addr),
    let readBack (m : OutMessage) (k : Kind) (body : List Byte) : Prop :=
      examine (wireBytes node ⟨dst, m⟩) = .queueNet dst node k body ∧ 60 ≤ (wireBytes node ⟨dst, m⟩).length ∧
        ∃ code, (code, k) ∈ kindCodes ∧ wireBytes node ⟨dst, m⟩ = frameOf node dst code body
    (∀ label result party minutes tag, ∃ body,
      readBack (.verdict label result party minutes tag) .verdict body ∧
        body = laidOut [(2, label.toNat), (1, verdictCode result), (1, party.getD 0), (2, minutes.getD 0), (2, tag.toNat)] ∧
        word2 body 0 = label ∧ num1 body 2 = verdictCode result ∧ num1 body 3 = party.getD 0 % 256 ∧
        num2 body 4 = minutes.getD 0 % 65536 ∧ word2 body 6 = tag) ∧
    (∀ tag result, (∀ l p a b rs, result = .grant l p a b rs → rs.length < 256) →
      (∀ rs, result = .refused rs → rs.length < 256) → (∀ ps, result = .listed ps → ps.length < 256) →
      ∃ body, readBack (.passReply tag result) .passReply body ∧ word2 body 2 = tag ∧
        body = laidOut (match result with
          | .grant label party start stop earlier =>
            [(1, 1), (1, earlier.length), (2, tag.toNat), (2, label.toNat), (1, party), (1, 0), (2, start), (2, stop)] ++
              earlier.map fun x => (1, reasonCode x)
          | .refused reasons => [(1, 2), (1, reasons.length), (2, tag.toNat)] ++ reasons.map fun x => (1, reasonCode x)
          | .retry => [(1, 3), (1, 0), (2, tag.toNat)]
          | .queueFull => [(1, 4), (1, 0), (2, tag.toNat)]
          | .phaseClosed => [(1, 5), (1, 0), (2, tag.toNat)]
          | .badRequest => [(1, 6), (1, 0), (2, tag.toNat)]
          | .listed passes => [(1, 7), (1, passes.length), (2, tag.toNat)] ++ passes.flatMap fun x =>
              [(2, x.label.toNat), (1, x.party), (1, listedCode x.state), (2, x.span.elim 0 Prod.fst),
               (2, x.span.elim 0 Prod.snd)]
          | .cancelled label party start => [(1, 8), (1, 0), (2, tag.toNat), (2, label.toNat), (1, party),
              yesOr start.isNone, (2, start.getD 0)]
          | .notFound => [(1, 9), (1, 0), (2, tag.toNat)])) ∧
    (∀ c label party reason start target moves, ∃ body,
      readBack (.passChange c label party reason start target moves) .passChange body ∧
        body = laidOut [(6, c.toNat), (2, label.toNat), (1, party), (1, changeCode reason), (2, start),
          (2, target.elim 0 Prod.fst), (2, target.elim 0 Prod.snd), (1, moves), (1, 0)] ∧
        cred6 body 0 = c ∧ word2 body 6 = label ∧ num1 body 8 = party % 256 ∧ num1 body 9 = changeCode reason ∧
        num2 body 10 = start % 65536 ∧ num2 body 12 = target.elim 0 Prod.fst % 65536 ∧
        num2 body 14 = target.elim 0 Prod.snd % 65536 ∧ num1 body 16 = moves % 256) ∧
    (∀ content, (∀ ls, content = .lines ls → ls.length < 256) →
      ∃ body, readBack (.boardFrame content) .boardFrame body ∧
        body = laidOut (match content with
          | .blank => [(1, 1), (1, 0)]
          | .lines ls => [(1, 0), (1, ls.length)] ++ ls.flatMap fun x =>
              [(2, x.label.toNat), (1, postedCode x.value + if x.alert then 128 else 0), (1, postedMinutes x.value)])) ∧
    (∀ flags, ∃ body, readBack (.notice flags) .notice body ∧ num2 body 0 = flags.toNat ∧
      body = laidOut [(2, flags.toNat), (2, 0)]) ∧
    ∀ code x sequence ignored fields, code < 256 → fields.length < 65530 → (x ≠ .done → fields = []) →
      (x = .done → replyFieldsFit code fields) →
      ∃ body, readBack (.mgmtReply code x sequence ignored fields) .mgmtReply body ∧
        body = laidOut [(1, code), (1, mgmtResultCode x), (2, sequence.toNat), yesOr ignored, (1, 0)] ++ fields ∧
        num1 body 0 = code ∧ num1 body 1 = mgmtResultCode x ∧ word2 body 2 = sequence) ∧
  ([.admitStandby, .admitPass, .admitFlex, .refuseNoPass, .refuseEarly, .refuseExpired, .refuseRideDown, .refuseRideClosed,
     .refuseParkClosed, .refuseBadCredential].map verdictCode = [1, 2, 3, 4, 5, 6, 7, 8, 9, 10] ∧
   [.unknownRide, .ridePaused, .rideDown, .rideClosed, .duplicate, .limit, .tableFull, .soldOut].map reasonCode =
     [1, 2, 3, 4, 5, 6, 7, 8] ∧
   [.future, .redeemable, .past, .lost, .flex].map listedCode = [1, 2, 3, 4, 5] ∧
   [.shifted, .flexed, .expired].map changeCode = [1, 2, 3] ∧
   (∀ m, [.wait m, .over, .paused, .down, .closed, .off].map postedCode = [1, 2, 3, 4, 5, 6] ∧
     [.wait m, .over, .paused, .down, .closed, .off].map postedMinutes = [m, 0, 0, 0, 0, 0]) ∧
   [.done, .accepted, .busy, .locked, .refusedPhase, .badIndex, .badValue, .notFound, .clockUnset].map mgmtResultCode =
     [1, 2, 3, 4, 5, 6, 7, 8, 9]) ∧
  (∀ f : Frame,
    let n := num2 f 16
    let body := (f.drop 22).take n
    let fits (k : Kind) : Prop :=
      num1 f 14 = 1 ∧ (num1 f 15, k) ∈ kindCodes ∧ 22 + n ≤ f.length ∧ fitsLayout k body
    (word2 f 12 ≠ 0x88B6 → examine f = .foreign) ∧
    (word2 f 12 = 0x88B6 →
      (∀ k, fits k → examine f = .queueNet (word2 f 18) (word2 f 20) k body) ∧
      ((∀ k, ¬fits k) → examine f = .malformed))) ∧
  (∀ (body : List Byte) (i : Nat),
    num1 body i = (body.getD i 0).toNat ∧ num2 body i = 256 * num1 body i + num1 body (i + 1) ∧
    (word2 body i).toNat = num2 body i ∧
    (cred6 body i).toNat = 4294967296 * num2 body i + 65536 * num2 body (i + 2) + num2 body (i + 4)) ∧
  ∀ (p : Port) (src : Addr) (body : List Byte),
    (requestOf p src .passRequest body = some ⟨p, src, word2 body 14, .pass (cred6 body 0) (num1 body 6) (num1 body 7)
      ((List.range (min (num1 body 7) 3)).map fun i => word2 body (16 + 2 * i))
      (if num1 body 8 % 2 = 1 then some (num2 body 10) else none)
      (if num1 body 8 / 2 % 2 = 1 then some (num2 body 12) else none)⟩) ∧
    (requestOf p src .passCancel body = some ⟨p, src, word2 body 8, .cancel (cred6 body 0) (word2 body 6)⟩) ∧
    (requestOf p src .passList body = some ⟨p, src, word2 body 8, .list (cred6 body 0)⟩) ∧
    (∀ k, k ∉ [Kind.passRequest, .passCancel, .passList] → requestOf p src k body = none) ∧
    (∀ x ∈ [(0x01, MgmtCommand.statusRead (num1 body 4) (num1 body 5)),
        (0x02, .tableRead (num1 body 4) (num2 body 5) ((List.range (num1 body 7)).map fun i => num1 body (8 + i))),
        (0x03, .tableWrite (num1 body 4) (num2 body 5)
          ((List.range (num1 body 7)).map fun i => (num1 body (8 + 3 * i), num2 body (9 + 3 * i)))),
        (0x04, .dayOpen), (0x05, .phaseSet (num1 body 4)), (0x06, .dayClose),
        (0x07, .clockSet (num1 body 4) (num1 body 5) (num1 body 6)),
        (0x08, .clockTrim (if num1 body 4 < 128 then num1 body 4 else (num1 body 4 : Int) - 256)),
        (0x09, .rideOverride (num1 body 4) (num1 body 5)), (0x0A, .boardMode (num1 body 4) (num1 body 5)),
        (0x0B, .noticeSet (word2 body 4) (word2 body 6)), (0x0C, .noticeClear (word2 body 4)),
        (0x0D, .countsRead (num1 body 4) (num1 body 5)), (0x0E, .calendarRead (num1 body 4) (num1 body 5) (num1 body 6)),
        (0x0F, .guestRead (num1 body 4) (cred6 body 5)), (0x10, .passRevoke (num1 body 4) (cred6 body 5)),
        (0x11, .softReset)],
      num1 body 0 = x.1 → entryOf src body = some ⟨src, word2 body 2, x.2⟩) ∧
    (num1 body 0 = 0 ∨ 0x11 < num1 body 0 → entryOf src body = none)

/-! ## What every step keeps -/

/-- The state after reset satisfies the invariants below. -/
def Obligations.ResetSatisfiesInvariants : Prop :=
  accountsHold State.reset ∧ nightIsEmpty State.reset ∧ queuesBounded State.reset ∧ guestTableWf State.reset ∧
    countersWf State.reset ∧ walkerSound State.reset ∧ holdingsAgree State.reset ∧ passesBounded State.reset ∧
    clockSetByDay State.reset

/-- R58: after every step T = HELD + REDEEMED + EXPIRED + MOVED_OUT for every window, and HELD is the party sum of its holder
list. -/
def Obligations.AccountsKept : Prop := ∀ s t : State, accountsHold s → step s = .next t → accountsHold t

/-- R1: outside the day the calendar, the flex lists, the Guest Table and the Walker list stay empty. R2: whenever the phase is
not NIGHT, the clock is set. -/
def Obligations.NightIsEmptyKept : Prop :=
  (∀ s t : State, nightIsEmpty s → step s = .next t → nightIsEmpty t) ∧
    ∀ s t : State, clockSetByDay s → step s = .next t → clockSetByDay t

/-- No receive buffer ever holds more than 16 frames, no relay or part output queue more than 128, the field intake no more
than 256 messages, the management intake no more than 16 commands, the kiosk queue no more than 32 requests, the remote queue
no more than 64, and the held list no more than 8. The Walker's work list and the holder lists are not spoken of. -/
def Obligations.QueuesBoundedKept : Prop := ∀ s t : State, queuesBounded s → step s = .next t → queuesBounded t

/-- R61, R62: no credential appears twice in the Guest Table, which holds at most 65,536 records, each with at least one pass
and at most one for each ride; and no record holds more than PASSES_PER_GUEST passes. -/
def Obligations.GuestTableKept : Prop :=
  (∀ s t : State, guestTableWf s → step s = .next t → guestTableWf t) ∧
    ∀ s t : State, guestTableWf s → nightIsEmpty s → passesBounded s → step s = .next t → passesBounded t

/-- R30, R84, R134: the pass credits, the run counter and the mark lists stay within their limits and in order. -/
def Obligations.CountersKept : Prop := ∀ s t : State, countersWf s → step s = .next t → countersWf t

/-- R44: a window's state moves only forward: FUTURE to REDEEMABLE or LOST, REDEEMABLE to PAST or LOST, and never back; its start
and end stay. One command, as a trim, may take a window through two of these moves, but no window that ends after it starts
from FUTURE to PAST. Only the completion of an opening check brings new windows. -/
def Obligations.WindowsMoveForward : Prop :=
  ∀ s t : State, s.pending.head? ≠ some .checkComplete → step s = .next t → windowsMoveForward s t

/-- R48, R114, R115: the Walker's items stay sound: one for a window at most, each for a window in the state its kind needs,
one for every LOST or PAST window with holders; and the displacing counts count them. -/
def Obligations.WalkerSoundKept : Prop := ∀ s t : State, walkerSound s → step s = .next t → walkerSound t

/-- R58, R63: the Guest Table and the Calendar stay in agreement about every pass. -/
def Obligations.HoldingsAgreeKept : Prop :=
  ∀ s t : State, guestTableWf s → nightIsEmpty s → holdingsAgree s → step s = .next t → holdingsAgree t
end

