-- ==== Sys2Proof/Laws/State.lean ====
section
/-! SUPPORT. What each named update of the state leaves: one lemma per field and update, true by unfolding. -/

namespace Sys2Proof

/-! ## Tables -/

theorem look_tabulate {n : Nat} {α : Type} (f : Fin n → α) (i : Fin n) : look (tabulate f) i = f i := by
  simp [look, tabulate]

theorem look_put {n : Nat} {α : Type} (t : Table n α) (i j : Fin n) (a : α) :
    look (put t i a) j = if i = j then a else look t j := by
  by_cases h : i = j
  · subst h; simp [look, put]
  · have : i.val ≠ j.val := fun e => h (Fin.ext e)
    simp [look, put, h, this]

@[simp] theorem look_put_same {n : Nat} {α : Type} (t : Table n α) (i : Fin n) (a : α) : look (put t i a) i = a := by
  simp [look_put]

theorem look_put_other {n : Nat} {α : Type} (t : Table n α) {i j : Fin n} (a : α) (h : i ≠ j) :
    look (put t i a) j = look t j := by simp [look_put, h]

theorem look_upd {n : Nat} {α : Type} (t : Table n α) (i j : Fin n) (f : α → α) :
    look (upd t i f) j = if i = j then f (look t i) else look t j := look_put ..

@[simp] theorem look_upd_same {n : Nat} {α : Type} (t : Table n α) (i : Fin n) (f : α → α) :
    look (upd t i f) i = f (look t i) := look_put_same ..

@[simp] theorem look_filled {n : Nat} {α : Type} (a : α) (i : Fin n) : look (filled n a) i = a := by
  simp [look, filled]

@[simp] theorem look_tmap {n : Nat} {α β : Type} (f : α → β) (t : Table n α) (i : Fin n) :
    look (tmap f t) i = f (look t i) := look_tabulate ..

/-- Two tables with equal entries are equal. -/
theorem table_ext {n : Nat} {α : Type} {t u : Table n α} (h : ∀ i, look t i = look u i) : t = u := by
  apply Vector.ext
  intro i hi
  exact h ⟨i, hi⟩

/-- Writing back what an entry holds changes nothing. -/
theorem put_look {n : Nat} {α : Type} (t : Table n α) (i : Fin n) : put t i (look t i) = t := by
  apply table_ext
  intro j
  rw [look_put]
  split <;> simp_all

end Sys2Proof

namespace Sys2Proof.Machine

/-! ## State.withPending -/

@[simp] theorem State_withPending_nodeAddress (s : State) (cs : List Instr) : (s.withPending cs).nodeAddress = s.nodeAddress := rfl
@[simp] theorem State_withPending_resetLow (s : State) (cs : List Instr) : (s.withPending cs).resetLow = s.resetLow := rfl
@[simp] theorem State_withPending_fieldPort (s : State) (cs : List Instr) : (s.withPending cs).fieldPort = s.fieldPort := rfl
@[simp] theorem State_withPending_trunkPort (s : State) (cs : List Instr) : (s.withPending cs).trunkPort = s.trunkPort := rfl
@[simp] theorem State_withPending_readers (s : State) (cs : List Instr) : (s.withPending cs).readers = s.readers := rfl
@[simp] theorem State_withPending_fieldIntake (s : State) (cs : List Instr) : (s.withPending cs).fieldIntake = s.fieldIntake := rfl
@[simp] theorem State_withPending_mgmtIntake (s : State) (cs : List Instr) : (s.withPending cs).mgmtIntake = s.mgmtIntake := rfl
@[simp] theorem State_withPending_day (s : State) (cs : List Instr) : (s.withPending cs).day = s.day := rfl
@[simp] theorem State_withPending_rideTable (s : State) (cs : List Instr) : (s.withPending cs).rideTable = s.rideTable := rfl
@[simp] theorem State_withPending_rides (s : State) (cs : List Instr) : (s.withPending cs).rides = s.rides := rfl
@[simp] theorem State_withPending_calendar (s : State) (cs : List Instr) : (s.withPending cs).calendar = s.calendar := rfl
@[simp] theorem State_withPending_guests (s : State) (cs : List Instr) : (s.withPending cs).guests = s.guests := rfl
@[simp] theorem State_withPending_engine (s : State) (cs : List Instr) : (s.withPending cs).engine = s.engine := rfl
@[simp] theorem State_withPending_admission (s : State) (cs : List Instr) : (s.withPending cs).admission = s.admission := rfl
@[simp] theorem State_withPending_walker (s : State) (cs : List Instr) : (s.withPending cs).walker = s.walker := rfl
@[simp] theorem State_withPending_tallies (s : State) (cs : List Instr) : (s.withPending cs).tallies = s.tallies := rfl
@[simp] theorem State_withPending_monitors (s : State) (cs : List Instr) : (s.withPending cs).monitors = s.monitors := rfl
@[simp] theorem State_withPending_boardTable (s : State) (cs : List Instr) : (s.withPending cs).boardTable = s.boardTable := rfl
@[simp] theorem State_withPending_boards (s : State) (cs : List Instr) : (s.withPending cs).boards = s.boards := rfl
@[simp] theorem State_withPending_heldValues (s : State) (cs : List Instr) : (s.withPending cs).heldValues = s.heldValues := rfl
@[simp] theorem State_withPending_management (s : State) (cs : List Instr) : (s.withPending cs).management = s.management := rfl
@[simp] theorem State_withPending_out (s : State) (cs : List Instr) : (s.withPending cs).out = s.out := rfl

/-! ## raise -/

@[simp] theorem raise_pending (f : Flag) (s : State) : (raise f s).pending = s.pending := rfl
@[simp] theorem raise_nodeAddress (f : Flag) (s : State) : (raise f s).nodeAddress = s.nodeAddress := rfl
@[simp] theorem raise_resetLow (f : Flag) (s : State) : (raise f s).resetLow = s.resetLow := rfl
@[simp] theorem raise_fieldPort (f : Flag) (s : State) : (raise f s).fieldPort = s.fieldPort := rfl
@[simp] theorem raise_trunkPort (f : Flag) (s : State) : (raise f s).trunkPort = s.trunkPort := rfl
@[simp] theorem raise_readers (f : Flag) (s : State) : (raise f s).readers = s.readers := rfl
@[simp] theorem raise_fieldIntake (f : Flag) (s : State) : (raise f s).fieldIntake = s.fieldIntake := rfl
@[simp] theorem raise_mgmtIntake (f : Flag) (s : State) : (raise f s).mgmtIntake = s.mgmtIntake := rfl
@[simp] theorem raise_day (f : Flag) (s : State) : (raise f s).day = s.day := rfl
@[simp] theorem raise_rideTable (f : Flag) (s : State) : (raise f s).rideTable = s.rideTable := rfl
@[simp] theorem raise_rides (f : Flag) (s : State) : (raise f s).rides = s.rides := rfl
@[simp] theorem raise_calendar (f : Flag) (s : State) : (raise f s).calendar = s.calendar := rfl
@[simp] theorem raise_guests (f : Flag) (s : State) : (raise f s).guests = s.guests := rfl
@[simp] theorem raise_engine (f : Flag) (s : State) : (raise f s).engine = s.engine := rfl
@[simp] theorem raise_admission (f : Flag) (s : State) : (raise f s).admission = s.admission := rfl
@[simp] theorem raise_walker (f : Flag) (s : State) : (raise f s).walker = s.walker := rfl
@[simp] theorem raise_tallies (f : Flag) (s : State) : (raise f s).tallies = s.tallies := rfl
@[simp] theorem raise_monitors (f : Flag) (s : State) : (raise f s).monitors = s.monitors := rfl
@[simp] theorem raise_boardTable (f : Flag) (s : State) : (raise f s).boardTable = s.boardTable := rfl
@[simp] theorem raise_boards (f : Flag) (s : State) : (raise f s).boards = s.boards := rfl
@[simp] theorem raise_heldValues (f : Flag) (s : State) : (raise f s).heldValues = s.heldValues := rfl
@[simp] theorem raise_management (f : Flag) (s : State) : (raise f s).management = s.management := rfl

/-! ## changeCounts -/

@[simp] theorem changeCounts_pending (r : Ride) (f : RideCounts → RideCounts) (s : State) : (changeCounts r f s).pending = s.pending := rfl
@[simp] theorem changeCounts_nodeAddress (r : Ride) (f : RideCounts → RideCounts) (s : State) : (changeCounts r f s).nodeAddress = s.nodeAddress := rfl
@[simp] theorem changeCounts_resetLow (r : Ride) (f : RideCounts → RideCounts) (s : State) : (changeCounts r f s).resetLow = s.resetLow := rfl
@[simp] theorem changeCounts_fieldPort (r : Ride) (f : RideCounts → RideCounts) (s : State) : (changeCounts r f s).fieldPort = s.fieldPort := rfl
@[simp] theorem changeCounts_trunkPort (r : Ride) (f : RideCounts → RideCounts) (s : State) : (changeCounts r f s).trunkPort = s.trunkPort := rfl
@[simp] theorem changeCounts_readers (r : Ride) (f : RideCounts → RideCounts) (s : State) : (changeCounts r f s).readers = s.readers := rfl
@[simp] theorem changeCounts_fieldIntake (r : Ride) (f : RideCounts → RideCounts) (s : State) : (changeCounts r f s).fieldIntake = s.fieldIntake := rfl
@[simp] theorem changeCounts_mgmtIntake (r : Ride) (f : RideCounts → RideCounts) (s : State) : (changeCounts r f s).mgmtIntake = s.mgmtIntake := rfl
@[simp] theorem changeCounts_day (r : Ride) (f : RideCounts → RideCounts) (s : State) : (changeCounts r f s).day = s.day := rfl
@[simp] theorem changeCounts_rideTable (r : Ride) (f : RideCounts → RideCounts) (s : State) : (changeCounts r f s).rideTable = s.rideTable := rfl
@[simp] theorem changeCounts_rides (r : Ride) (f : RideCounts → RideCounts) (s : State) : (changeCounts r f s).rides = s.rides := rfl
@[simp] theorem changeCounts_calendar (r : Ride) (f : RideCounts → RideCounts) (s : State) : (changeCounts r f s).calendar = s.calendar := rfl
@[simp] theorem changeCounts_guests (r : Ride) (f : RideCounts → RideCounts) (s : State) : (changeCounts r f s).guests = s.guests := rfl
@[simp] theorem changeCounts_engine (r : Ride) (f : RideCounts → RideCounts) (s : State) : (changeCounts r f s).engine = s.engine := rfl
@[simp] theorem changeCounts_admission (r : Ride) (f : RideCounts → RideCounts) (s : State) : (changeCounts r f s).admission = s.admission := rfl
@[simp] theorem changeCounts_walker (r : Ride) (f : RideCounts → RideCounts) (s : State) : (changeCounts r f s).walker = s.walker := rfl
@[simp] theorem changeCounts_tallies (r : Ride) (f : RideCounts → RideCounts) (s : State) : (changeCounts r f s).tallies = s.tallies := rfl
@[simp] theorem changeCounts_monitors (r : Ride) (f : RideCounts → RideCounts) (s : State) : (changeCounts r f s).monitors = s.monitors := rfl
@[simp] theorem changeCounts_boardTable (r : Ride) (f : RideCounts → RideCounts) (s : State) : (changeCounts r f s).boardTable = s.boardTable := rfl
@[simp] theorem changeCounts_boards (r : Ride) (f : RideCounts → RideCounts) (s : State) : (changeCounts r f s).boards = s.boards := rfl
@[simp] theorem changeCounts_heldValues (r : Ride) (f : RideCounts → RideCounts) (s : State) : (changeCounts r f s).heldValues = s.heldValues := rfl
@[simp] theorem changeCounts_out (r : Ride) (f : RideCounts → RideCounts) (s : State) : (changeCounts r f s).out = s.out := rfl

/-! ## changeWindows -/

@[simp] theorem changeWindows_pending (r : Ride) (f : List Window → List Window) (s : State) : (changeWindows r f s).pending = s.pending := rfl
@[simp] theorem changeWindows_nodeAddress (r : Ride) (f : List Window → List Window) (s : State) : (changeWindows r f s).nodeAddress = s.nodeAddress := rfl
@[simp] theorem changeWindows_resetLow (r : Ride) (f : List Window → List Window) (s : State) : (changeWindows r f s).resetLow = s.resetLow := rfl
@[simp] theorem changeWindows_fieldPort (r : Ride) (f : List Window → List Window) (s : State) : (changeWindows r f s).fieldPort = s.fieldPort := rfl
@[simp] theorem changeWindows_trunkPort (r : Ride) (f : List Window → List Window) (s : State) : (changeWindows r f s).trunkPort = s.trunkPort := rfl
@[simp] theorem changeWindows_readers (r : Ride) (f : List Window → List Window) (s : State) : (changeWindows r f s).readers = s.readers := rfl
@[simp] theorem changeWindows_fieldIntake (r : Ride) (f : List Window → List Window) (s : State) : (changeWindows r f s).fieldIntake = s.fieldIntake := rfl
@[simp] theorem changeWindows_mgmtIntake (r : Ride) (f : List Window → List Window) (s : State) : (changeWindows r f s).mgmtIntake = s.mgmtIntake := rfl
@[simp] theorem changeWindows_day (r : Ride) (f : List Window → List Window) (s : State) : (changeWindows r f s).day = s.day := rfl
@[simp] theorem changeWindows_rideTable (r : Ride) (f : List Window → List Window) (s : State) : (changeWindows r f s).rideTable = s.rideTable := rfl
@[simp] theorem changeWindows_rides (r : Ride) (f : List Window → List Window) (s : State) : (changeWindows r f s).rides = s.rides := rfl
@[simp] theorem changeWindows_guests (r : Ride) (f : List Window → List Window) (s : State) : (changeWindows r f s).guests = s.guests := rfl
@[simp] theorem changeWindows_engine (r : Ride) (f : List Window → List Window) (s : State) : (changeWindows r f s).engine = s.engine := rfl
@[simp] theorem changeWindows_admission (r : Ride) (f : List Window → List Window) (s : State) : (changeWindows r f s).admission = s.admission := rfl
@[simp] theorem changeWindows_walker (r : Ride) (f : List Window → List Window) (s : State) : (changeWindows r f s).walker = s.walker := rfl
@[simp] theorem changeWindows_tallies (r : Ride) (f : List Window → List Window) (s : State) : (changeWindows r f s).tallies = s.tallies := rfl
@[simp] theorem changeWindows_monitors (r : Ride) (f : List Window → List Window) (s : State) : (changeWindows r f s).monitors = s.monitors := rfl
@[simp] theorem changeWindows_boardTable (r : Ride) (f : List Window → List Window) (s : State) : (changeWindows r f s).boardTable = s.boardTable := rfl
@[simp] theorem changeWindows_boards (r : Ride) (f : List Window → List Window) (s : State) : (changeWindows r f s).boards = s.boards := rfl
@[simp] theorem changeWindows_heldValues (r : Ride) (f : List Window → List Window) (s : State) : (changeWindows r f s).heldValues = s.heldValues := rfl
@[simp] theorem changeWindows_management (r : Ride) (f : List Window → List Window) (s : State) : (changeWindows r f s).management = s.management := rfl
@[simp] theorem changeWindows_out (r : Ride) (f : List Window → List Window) (s : State) : (changeWindows r f s).out = s.out := rfl

/-! ## changeFlex -/

@[simp] theorem changeFlex_pending (r : Ride) (f : List Holder → List Holder) (s : State) : (changeFlex r f s).pending = s.pending := rfl
@[simp] theorem changeFlex_nodeAddress (r : Ride) (f : List Holder → List Holder) (s : State) : (changeFlex r f s).nodeAddress = s.nodeAddress := rfl
@[simp] theorem changeFlex_resetLow (r : Ride) (f : List Holder → List Holder) (s : State) : (changeFlex r f s).resetLow = s.resetLow := rfl
@[simp] theorem changeFlex_fieldPort (r : Ride) (f : List Holder → List Holder) (s : State) : (changeFlex r f s).fieldPort = s.fieldPort := rfl
@[simp] theorem changeFlex_trunkPort (r : Ride) (f : List Holder → List Holder) (s : State) : (changeFlex r f s).trunkPort = s.trunkPort := rfl
@[simp] theorem changeFlex_readers (r : Ride) (f : List Holder → List Holder) (s : State) : (changeFlex r f s).readers = s.readers := rfl
@[simp] theorem changeFlex_fieldIntake (r : Ride) (f : List Holder → List Holder) (s : State) : (changeFlex r f s).fieldIntake = s.fieldIntake := rfl
@[simp] theorem changeFlex_mgmtIntake (r : Ride) (f : List Holder → List Holder) (s : State) : (changeFlex r f s).mgmtIntake = s.mgmtIntake := rfl
@[simp] theorem changeFlex_day (r : Ride) (f : List Holder → List Holder) (s : State) : (changeFlex r f s).day = s.day := rfl
@[simp] theorem changeFlex_rideTable (r : Ride) (f : List Holder → List Holder) (s : State) : (changeFlex r f s).rideTable = s.rideTable := rfl
@[simp] theorem changeFlex_rides (r : Ride) (f : List Holder → List Holder) (s : State) : (changeFlex r f s).rides = s.rides := rfl
@[simp] theorem changeFlex_guests (r : Ride) (f : List Holder → List Holder) (s : State) : (changeFlex r f s).guests = s.guests := rfl
@[simp] theorem changeFlex_engine (r : Ride) (f : List Holder → List Holder) (s : State) : (changeFlex r f s).engine = s.engine := rfl
@[simp] theorem changeFlex_admission (r : Ride) (f : List Holder → List Holder) (s : State) : (changeFlex r f s).admission = s.admission := rfl
@[simp] theorem changeFlex_walker (r : Ride) (f : List Holder → List Holder) (s : State) : (changeFlex r f s).walker = s.walker := rfl
@[simp] theorem changeFlex_tallies (r : Ride) (f : List Holder → List Holder) (s : State) : (changeFlex r f s).tallies = s.tallies := rfl
@[simp] theorem changeFlex_monitors (r : Ride) (f : List Holder → List Holder) (s : State) : (changeFlex r f s).monitors = s.monitors := rfl
@[simp] theorem changeFlex_boardTable (r : Ride) (f : List Holder → List Holder) (s : State) : (changeFlex r f s).boardTable = s.boardTable := rfl
@[simp] theorem changeFlex_boards (r : Ride) (f : List Holder → List Holder) (s : State) : (changeFlex r f s).boards = s.boards := rfl
@[simp] theorem changeFlex_heldValues (r : Ride) (f : List Holder → List Holder) (s : State) : (changeFlex r f s).heldValues = s.heldValues := rfl
@[simp] theorem changeFlex_management (r : Ride) (f : List Holder → List Holder) (s : State) : (changeFlex r f s).management = s.management := rfl
@[simp] theorem changeFlex_out (r : Ride) (f : List Holder → List Holder) (s : State) : (changeFlex r f s).out = s.out := rfl

/-! ## changeBoard -/

@[simp] theorem changeBoard_pending (b : BoardIx) (f : Board → Board) (s : State) : (changeBoard b f s).pending = s.pending := rfl
@[simp] theorem changeBoard_nodeAddress (b : BoardIx) (f : Board → Board) (s : State) : (changeBoard b f s).nodeAddress = s.nodeAddress := rfl
@[simp] theorem changeBoard_resetLow (b : BoardIx) (f : Board → Board) (s : State) : (changeBoard b f s).resetLow = s.resetLow := rfl
@[simp] theorem changeBoard_fieldPort (b : BoardIx) (f : Board → Board) (s : State) : (changeBoard b f s).fieldPort = s.fieldPort := rfl
@[simp] theorem changeBoard_trunkPort (b : BoardIx) (f : Board → Board) (s : State) : (changeBoard b f s).trunkPort = s.trunkPort := rfl
@[simp] theorem changeBoard_readers (b : BoardIx) (f : Board → Board) (s : State) : (changeBoard b f s).readers = s.readers := rfl
@[simp] theorem changeBoard_fieldIntake (b : BoardIx) (f : Board → Board) (s : State) : (changeBoard b f s).fieldIntake = s.fieldIntake := rfl
@[simp] theorem changeBoard_mgmtIntake (b : BoardIx) (f : Board → Board) (s : State) : (changeBoard b f s).mgmtIntake = s.mgmtIntake := rfl
@[simp] theorem changeBoard_day (b : BoardIx) (f : Board → Board) (s : State) : (changeBoard b f s).day = s.day := rfl
@[simp] theorem changeBoard_rideTable (b : BoardIx) (f : Board → Board) (s : State) : (changeBoard b f s).rideTable = s.rideTable := rfl
@[simp] theorem changeBoard_rides (b : BoardIx) (f : Board → Board) (s : State) : (changeBoard b f s).rides = s.rides := rfl
@[simp] theorem changeBoard_calendar (b : BoardIx) (f : Board → Board) (s : State) : (changeBoard b f s).calendar = s.calendar := rfl
@[simp] theorem changeBoard_guests (b : BoardIx) (f : Board → Board) (s : State) : (changeBoard b f s).guests = s.guests := rfl
@[simp] theorem changeBoard_engine (b : BoardIx) (f : Board → Board) (s : State) : (changeBoard b f s).engine = s.engine := rfl
@[simp] theorem changeBoard_admission (b : BoardIx) (f : Board → Board) (s : State) : (changeBoard b f s).admission = s.admission := rfl
@[simp] theorem changeBoard_walker (b : BoardIx) (f : Board → Board) (s : State) : (changeBoard b f s).walker = s.walker := rfl
@[simp] theorem changeBoard_tallies (b : BoardIx) (f : Board → Board) (s : State) : (changeBoard b f s).tallies = s.tallies := rfl
@[simp] theorem changeBoard_monitors (b : BoardIx) (f : Board → Board) (s : State) : (changeBoard b f s).monitors = s.monitors := rfl
@[simp] theorem changeBoard_boardTable (b : BoardIx) (f : Board → Board) (s : State) : (changeBoard b f s).boardTable = s.boardTable := rfl
@[simp] theorem changeBoard_heldValues (b : BoardIx) (f : Board → Board) (s : State) : (changeBoard b f s).heldValues = s.heldValues := rfl
@[simp] theorem changeBoard_management (b : BoardIx) (f : Board → Board) (s : State) : (changeBoard b f s).management = s.management := rfl
@[simp] theorem changeBoard_out (b : BoardIx) (f : Board → Board) (s : State) : (changeBoard b f s).out = s.out := rfl

/-! ## setTallies -/

@[simp] theorem setTallies_pending (ys : Table 48 Tally) (s : State) : (setTallies ys s).pending = s.pending := rfl
@[simp] theorem setTallies_nodeAddress (ys : Table 48 Tally) (s : State) : (setTallies ys s).nodeAddress = s.nodeAddress := rfl
@[simp] theorem setTallies_resetLow (ys : Table 48 Tally) (s : State) : (setTallies ys s).resetLow = s.resetLow := rfl
@[simp] theorem setTallies_fieldPort (ys : Table 48 Tally) (s : State) : (setTallies ys s).fieldPort = s.fieldPort := rfl
@[simp] theorem setTallies_trunkPort (ys : Table 48 Tally) (s : State) : (setTallies ys s).trunkPort = s.trunkPort := rfl
@[simp] theorem setTallies_readers (ys : Table 48 Tally) (s : State) : (setTallies ys s).readers = s.readers := rfl
@[simp] theorem setTallies_fieldIntake (ys : Table 48 Tally) (s : State) : (setTallies ys s).fieldIntake = s.fieldIntake := rfl
@[simp] theorem setTallies_mgmtIntake (ys : Table 48 Tally) (s : State) : (setTallies ys s).mgmtIntake = s.mgmtIntake := rfl
@[simp] theorem setTallies_day (ys : Table 48 Tally) (s : State) : (setTallies ys s).day = s.day := rfl
@[simp] theorem setTallies_rideTable (ys : Table 48 Tally) (s : State) : (setTallies ys s).rideTable = s.rideTable := rfl
@[simp] theorem setTallies_rides (ys : Table 48 Tally) (s : State) : (setTallies ys s).rides = s.rides := rfl
@[simp] theorem setTallies_calendar (ys : Table 48 Tally) (s : State) : (setTallies ys s).calendar = s.calendar := rfl
@[simp] theorem setTallies_guests (ys : Table 48 Tally) (s : State) : (setTallies ys s).guests = s.guests := rfl
@[simp] theorem setTallies_engine (ys : Table 48 Tally) (s : State) : (setTallies ys s).engine = s.engine := rfl
@[simp] theorem setTallies_admission (ys : Table 48 Tally) (s : State) : (setTallies ys s).admission = s.admission := rfl
@[simp] theorem setTallies_walker (ys : Table 48 Tally) (s : State) : (setTallies ys s).walker = s.walker := rfl
@[simp] theorem setTallies_monitors (ys : Table 48 Tally) (s : State) : (setTallies ys s).monitors = s.monitors := rfl
@[simp] theorem setTallies_boardTable (ys : Table 48 Tally) (s : State) : (setTallies ys s).boardTable = s.boardTable := rfl
@[simp] theorem setTallies_boards (ys : Table 48 Tally) (s : State) : (setTallies ys s).boards = s.boards := rfl
@[simp] theorem setTallies_heldValues (ys : Table 48 Tally) (s : State) : (setTallies ys s).heldValues = s.heldValues := rfl
@[simp] theorem setTallies_management (ys : Table 48 Tally) (s : State) : (setTallies ys s).management = s.management := rfl

/-! ## handState -/

@[simp] theorem handState_pending (r : Ride) (st : RideState) (s : State) : (handState r st s).pending = s.pending := rfl
@[simp] theorem handState_nodeAddress (r : Ride) (st : RideState) (s : State) : (handState r st s).nodeAddress = s.nodeAddress := rfl
@[simp] theorem handState_resetLow (r : Ride) (st : RideState) (s : State) : (handState r st s).resetLow = s.resetLow := rfl
@[simp] theorem handState_fieldPort (r : Ride) (st : RideState) (s : State) : (handState r st s).fieldPort = s.fieldPort := rfl
@[simp] theorem handState_trunkPort (r : Ride) (st : RideState) (s : State) : (handState r st s).trunkPort = s.trunkPort := rfl
@[simp] theorem handState_readers (r : Ride) (st : RideState) (s : State) : (handState r st s).readers = s.readers := rfl
@[simp] theorem handState_fieldIntake (r : Ride) (st : RideState) (s : State) : (handState r st s).fieldIntake = s.fieldIntake := rfl
@[simp] theorem handState_mgmtIntake (r : Ride) (st : RideState) (s : State) : (handState r st s).mgmtIntake = s.mgmtIntake := rfl
@[simp] theorem handState_day (r : Ride) (st : RideState) (s : State) : (handState r st s).day = s.day := rfl
@[simp] theorem handState_rideTable (r : Ride) (st : RideState) (s : State) : (handState r st s).rideTable = s.rideTable := rfl
@[simp] theorem handState_rides (r : Ride) (st : RideState) (s : State) : (handState r st s).rides = s.rides := rfl
@[simp] theorem handState_calendar (r : Ride) (st : RideState) (s : State) : (handState r st s).calendar = s.calendar := rfl
@[simp] theorem handState_guests (r : Ride) (st : RideState) (s : State) : (handState r st s).guests = s.guests := rfl
@[simp] theorem handState_engine (r : Ride) (st : RideState) (s : State) : (handState r st s).engine = s.engine := rfl
@[simp] theorem handState_admission (r : Ride) (st : RideState) (s : State) : (handState r st s).admission = s.admission := rfl
@[simp] theorem handState_walker (r : Ride) (st : RideState) (s : State) : (handState r st s).walker = s.walker := rfl
@[simp] theorem handState_tallies (r : Ride) (st : RideState) (s : State) : (handState r st s).tallies = s.tallies := rfl
@[simp] theorem handState_monitors (r : Ride) (st : RideState) (s : State) : (handState r st s).monitors = s.monitors := rfl
@[simp] theorem handState_boardTable (r : Ride) (st : RideState) (s : State) : (handState r st s).boardTable = s.boardTable := rfl
@[simp] theorem handState_boards (r : Ride) (st : RideState) (s : State) : (handState r st s).boards = s.boards := rfl
@[simp] theorem handState_heldValues (r : Ride) (st : RideState) (s : State) : (handState r st s).heldValues = s.heldValues := rfl
@[simp] theorem handState_management (r : Ride) (st : RideState) (s : State) : (handState r st s).management = s.management := rfl

/-! ## restRides -/

@[simp] theorem restRides_pending (s : State) : (restRides s).pending = s.pending := rfl
@[simp] theorem restRides_nodeAddress (s : State) : (restRides s).nodeAddress = s.nodeAddress := rfl
@[simp] theorem restRides_resetLow (s : State) : (restRides s).resetLow = s.resetLow := rfl
@[simp] theorem restRides_fieldPort (s : State) : (restRides s).fieldPort = s.fieldPort := rfl
@[simp] theorem restRides_trunkPort (s : State) : (restRides s).trunkPort = s.trunkPort := rfl
@[simp] theorem restRides_readers (s : State) : (restRides s).readers = s.readers := rfl
@[simp] theorem restRides_fieldIntake (s : State) : (restRides s).fieldIntake = s.fieldIntake := rfl
@[simp] theorem restRides_mgmtIntake (s : State) : (restRides s).mgmtIntake = s.mgmtIntake := rfl
@[simp] theorem restRides_day (s : State) : (restRides s).day = s.day := rfl
@[simp] theorem restRides_rideTable (s : State) : (restRides s).rideTable = s.rideTable := rfl
@[simp] theorem restRides_calendar (s : State) : (restRides s).calendar = s.calendar := rfl
@[simp] theorem restRides_guests (s : State) : (restRides s).guests = s.guests := rfl
@[simp] theorem restRides_engine (s : State) : (restRides s).engine = s.engine := rfl
@[simp] theorem restRides_admission (s : State) : (restRides s).admission = s.admission := rfl
@[simp] theorem restRides_walker (s : State) : (restRides s).walker = s.walker := rfl
@[simp] theorem restRides_tallies (s : State) : (restRides s).tallies = s.tallies := rfl
@[simp] theorem restRides_monitors (s : State) : (restRides s).monitors = s.monitors := rfl
@[simp] theorem restRides_boardTable (s : State) : (restRides s).boardTable = s.boardTable := rfl
@[simp] theorem restRides_boards (s : State) : (restRides s).boards = s.boards := rfl
@[simp] theorem restRides_heldValues (s : State) : (restRides s).heldValues = s.heldValues := rfl
@[simp] theorem restRides_management (s : State) : (restRides s).management = s.management := rfl
@[simp] theorem restRides_out (s : State) : (restRides s).out = s.out := rfl

/-! ## stopTimer -/

@[simp] theorem stopTimer_pending (s : State) (r : Ride) : (stopTimer s r).pending = s.pending := rfl
@[simp] theorem stopTimer_nodeAddress (s : State) (r : Ride) : (stopTimer s r).nodeAddress = s.nodeAddress := rfl
@[simp] theorem stopTimer_resetLow (s : State) (r : Ride) : (stopTimer s r).resetLow = s.resetLow := rfl
@[simp] theorem stopTimer_fieldPort (s : State) (r : Ride) : (stopTimer s r).fieldPort = s.fieldPort := rfl
@[simp] theorem stopTimer_trunkPort (s : State) (r : Ride) : (stopTimer s r).trunkPort = s.trunkPort := rfl
@[simp] theorem stopTimer_readers (s : State) (r : Ride) : (stopTimer s r).readers = s.readers := rfl
@[simp] theorem stopTimer_fieldIntake (s : State) (r : Ride) : (stopTimer s r).fieldIntake = s.fieldIntake := rfl
@[simp] theorem stopTimer_mgmtIntake (s : State) (r : Ride) : (stopTimer s r).mgmtIntake = s.mgmtIntake := rfl
@[simp] theorem stopTimer_day (s : State) (r : Ride) : (stopTimer s r).day = s.day := rfl
@[simp] theorem stopTimer_rideTable (s : State) (r : Ride) : (stopTimer s r).rideTable = s.rideTable := rfl
@[simp] theorem stopTimer_calendar (s : State) (r : Ride) : (stopTimer s r).calendar = s.calendar := rfl
@[simp] theorem stopTimer_guests (s : State) (r : Ride) : (stopTimer s r).guests = s.guests := rfl
@[simp] theorem stopTimer_engine (s : State) (r : Ride) : (stopTimer s r).engine = s.engine := rfl
@[simp] theorem stopTimer_admission (s : State) (r : Ride) : (stopTimer s r).admission = s.admission := rfl
@[simp] theorem stopTimer_walker (s : State) (r : Ride) : (stopTimer s r).walker = s.walker := rfl
@[simp] theorem stopTimer_tallies (s : State) (r : Ride) : (stopTimer s r).tallies = s.tallies := rfl
@[simp] theorem stopTimer_monitors (s : State) (r : Ride) : (stopTimer s r).monitors = s.monitors := rfl
@[simp] theorem stopTimer_boardTable (s : State) (r : Ride) : (stopTimer s r).boardTable = s.boardTable := rfl
@[simp] theorem stopTimer_boards (s : State) (r : Ride) : (stopTimer s r).boards = s.boards := rfl
@[simp] theorem stopTimer_heldValues (s : State) (r : Ride) : (stopTimer s r).heldValues = s.heldValues := rfl
@[simp] theorem stopTimer_management (s : State) (r : Ride) : (stopTimer s r).management = s.management := rfl
@[simp] theorem stopTimer_out (s : State) (r : Ride) : (stopTimer s r).out = s.out := rfl

/-! ## changeHeld -/

@[simp] theorem changeHeld_pending (f : HeldEntry → HeldEntry) (s : State) : (changeHeld f s).pending = s.pending := rfl
@[simp] theorem changeHeld_nodeAddress (f : HeldEntry → HeldEntry) (s : State) : (changeHeld f s).nodeAddress = s.nodeAddress := rfl
@[simp] theorem changeHeld_resetLow (f : HeldEntry → HeldEntry) (s : State) : (changeHeld f s).resetLow = s.resetLow := rfl
@[simp] theorem changeHeld_fieldPort (f : HeldEntry → HeldEntry) (s : State) : (changeHeld f s).fieldPort = s.fieldPort := rfl
@[simp] theorem changeHeld_trunkPort (f : HeldEntry → HeldEntry) (s : State) : (changeHeld f s).trunkPort = s.trunkPort := rfl
@[simp] theorem changeHeld_readers (f : HeldEntry → HeldEntry) (s : State) : (changeHeld f s).readers = s.readers := rfl
@[simp] theorem changeHeld_fieldIntake (f : HeldEntry → HeldEntry) (s : State) : (changeHeld f s).fieldIntake = s.fieldIntake := rfl
@[simp] theorem changeHeld_mgmtIntake (f : HeldEntry → HeldEntry) (s : State) : (changeHeld f s).mgmtIntake = s.mgmtIntake := rfl
@[simp] theorem changeHeld_day (f : HeldEntry → HeldEntry) (s : State) : (changeHeld f s).day = s.day := rfl
@[simp] theorem changeHeld_rideTable (f : HeldEntry → HeldEntry) (s : State) : (changeHeld f s).rideTable = s.rideTable := rfl
@[simp] theorem changeHeld_rides (f : HeldEntry → HeldEntry) (s : State) : (changeHeld f s).rides = s.rides := rfl
@[simp] theorem changeHeld_calendar (f : HeldEntry → HeldEntry) (s : State) : (changeHeld f s).calendar = s.calendar := rfl
@[simp] theorem changeHeld_guests (f : HeldEntry → HeldEntry) (s : State) : (changeHeld f s).guests = s.guests := rfl
@[simp] theorem changeHeld_admission (f : HeldEntry → HeldEntry) (s : State) : (changeHeld f s).admission = s.admission := rfl
@[simp] theorem changeHeld_walker (f : HeldEntry → HeldEntry) (s : State) : (changeHeld f s).walker = s.walker := rfl
@[simp] theorem changeHeld_tallies (f : HeldEntry → HeldEntry) (s : State) : (changeHeld f s).tallies = s.tallies := rfl
@[simp] theorem changeHeld_monitors (f : HeldEntry → HeldEntry) (s : State) : (changeHeld f s).monitors = s.monitors := rfl
@[simp] theorem changeHeld_boardTable (f : HeldEntry → HeldEntry) (s : State) : (changeHeld f s).boardTable = s.boardTable := rfl
@[simp] theorem changeHeld_boards (f : HeldEntry → HeldEntry) (s : State) : (changeHeld f s).boards = s.boards := rfl
@[simp] theorem changeHeld_heldValues (f : HeldEntry → HeldEntry) (s : State) : (changeHeld f s).heldValues = s.heldValues := rfl
@[simp] theorem changeHeld_management (f : HeldEntry → HeldEntry) (s : State) : (changeHeld f s).management = s.management := rfl
@[simp] theorem changeHeld_out (f : HeldEntry → HeldEntry) (s : State) : (changeHeld f s).out = s.out := rfl

/-! ## setPort -/

@[simp] theorem setPort_pending (s : State) (p : Port) (ps : PortState) : (setPort s p ps).pending = s.pending := by cases p <;> rfl
@[simp] theorem setPort_nodeAddress (s : State) (p : Port) (ps : PortState) : (setPort s p ps).nodeAddress = s.nodeAddress := by cases p <;> rfl
@[simp] theorem setPort_resetLow (s : State) (p : Port) (ps : PortState) : (setPort s p ps).resetLow = s.resetLow := by cases p <;> rfl
@[simp] theorem setPort_readers (s : State) (p : Port) (ps : PortState) : (setPort s p ps).readers = s.readers := by cases p <;> rfl
@[simp] theorem setPort_fieldIntake (s : State) (p : Port) (ps : PortState) : (setPort s p ps).fieldIntake = s.fieldIntake := by cases p <;> rfl
@[simp] theorem setPort_mgmtIntake (s : State) (p : Port) (ps : PortState) : (setPort s p ps).mgmtIntake = s.mgmtIntake := by cases p <;> rfl
@[simp] theorem setPort_day (s : State) (p : Port) (ps : PortState) : (setPort s p ps).day = s.day := by cases p <;> rfl
@[simp] theorem setPort_rideTable (s : State) (p : Port) (ps : PortState) : (setPort s p ps).rideTable = s.rideTable := by cases p <;> rfl
@[simp] theorem setPort_rides (s : State) (p : Port) (ps : PortState) : (setPort s p ps).rides = s.rides := by cases p <;> rfl
@[simp] theorem setPort_calendar (s : State) (p : Port) (ps : PortState) : (setPort s p ps).calendar = s.calendar := by cases p <;> rfl
@[simp] theorem setPort_guests (s : State) (p : Port) (ps : PortState) : (setPort s p ps).guests = s.guests := by cases p <;> rfl
@[simp] theorem setPort_engine (s : State) (p : Port) (ps : PortState) : (setPort s p ps).engine = s.engine := by cases p <;> rfl
@[simp] theorem setPort_admission (s : State) (p : Port) (ps : PortState) : (setPort s p ps).admission = s.admission := by cases p <;> rfl
@[simp] theorem setPort_walker (s : State) (p : Port) (ps : PortState) : (setPort s p ps).walker = s.walker := by cases p <;> rfl
@[simp] theorem setPort_tallies (s : State) (p : Port) (ps : PortState) : (setPort s p ps).tallies = s.tallies := by cases p <;> rfl
@[simp] theorem setPort_monitors (s : State) (p : Port) (ps : PortState) : (setPort s p ps).monitors = s.monitors := by cases p <;> rfl
@[simp] theorem setPort_boardTable (s : State) (p : Port) (ps : PortState) : (setPort s p ps).boardTable = s.boardTable := by cases p <;> rfl
@[simp] theorem setPort_boards (s : State) (p : Port) (ps : PortState) : (setPort s p ps).boards = s.boards := by cases p <;> rfl
@[simp] theorem setPort_heldValues (s : State) (p : Port) (ps : PortState) : (setPort s p ps).heldValues = s.heldValues := by cases p <;> rfl
@[simp] theorem setPort_management (s : State) (p : Port) (ps : PortState) : (setPort s p ps).management = s.management := by cases p <;> rfl
@[simp] theorem setPort_out (s : State) (p : Port) (ps : PortState) : (setPort s p ps).out = s.out := by cases p <;> rfl

/-! ## setQueue -/

@[simp] theorem setQueue_pending (p : Port) (qs : List Request) (s : State) : (setQueue p qs s).pending = s.pending := by cases p <;> rfl
@[simp] theorem setQueue_nodeAddress (p : Port) (qs : List Request) (s : State) : (setQueue p qs s).nodeAddress = s.nodeAddress := by cases p <;> rfl
@[simp] theorem setQueue_resetLow (p : Port) (qs : List Request) (s : State) : (setQueue p qs s).resetLow = s.resetLow := by cases p <;> rfl
@[simp] theorem setQueue_fieldPort (p : Port) (qs : List Request) (s : State) : (setQueue p qs s).fieldPort = s.fieldPort := by cases p <;> rfl
@[simp] theorem setQueue_trunkPort (p : Port) (qs : List Request) (s : State) : (setQueue p qs s).trunkPort = s.trunkPort := by cases p <;> rfl
@[simp] theorem setQueue_readers (p : Port) (qs : List Request) (s : State) : (setQueue p qs s).readers = s.readers := by cases p <;> rfl
@[simp] theorem setQueue_fieldIntake (p : Port) (qs : List Request) (s : State) : (setQueue p qs s).fieldIntake = s.fieldIntake := by cases p <;> rfl
@[simp] theorem setQueue_mgmtIntake (p : Port) (qs : List Request) (s : State) : (setQueue p qs s).mgmtIntake = s.mgmtIntake := by cases p <;> rfl
@[simp] theorem setQueue_day (p : Port) (qs : List Request) (s : State) : (setQueue p qs s).day = s.day := by cases p <;> rfl
@[simp] theorem setQueue_rideTable (p : Port) (qs : List Request) (s : State) : (setQueue p qs s).rideTable = s.rideTable := by cases p <;> rfl
@[simp] theorem setQueue_rides (p : Port) (qs : List Request) (s : State) : (setQueue p qs s).rides = s.rides := by cases p <;> rfl
@[simp] theorem setQueue_calendar (p : Port) (qs : List Request) (s : State) : (setQueue p qs s).calendar = s.calendar := by cases p <;> rfl
@[simp] theorem setQueue_guests (p : Port) (qs : List Request) (s : State) : (setQueue p qs s).guests = s.guests := by cases p <;> rfl
@[simp] theorem setQueue_admission (p : Port) (qs : List Request) (s : State) : (setQueue p qs s).admission = s.admission := by cases p <;> rfl
@[simp] theorem setQueue_walker (p : Port) (qs : List Request) (s : State) : (setQueue p qs s).walker = s.walker := by cases p <;> rfl
@[simp] theorem setQueue_tallies (p : Port) (qs : List Request) (s : State) : (setQueue p qs s).tallies = s.tallies := by cases p <;> rfl
@[simp] theorem setQueue_monitors (p : Port) (qs : List Request) (s : State) : (setQueue p qs s).monitors = s.monitors := by cases p <;> rfl
@[simp] theorem setQueue_boardTable (p : Port) (qs : List Request) (s : State) : (setQueue p qs s).boardTable = s.boardTable := by cases p <;> rfl
@[simp] theorem setQueue_boards (p : Port) (qs : List Request) (s : State) : (setQueue p qs s).boards = s.boards := by cases p <;> rfl
@[simp] theorem setQueue_heldValues (p : Port) (qs : List Request) (s : State) : (setQueue p qs s).heldValues = s.heldValues := by cases p <;> rfl
@[simp] theorem setQueue_management (p : Port) (qs : List Request) (s : State) : (setQueue p qs s).management = s.management := by cases p <;> rfl
@[simp] theorem setQueue_out (p : Port) (qs : List Request) (s : State) : (setQueue p qs s).out = s.out := by cases p <;> rfl

/-! ## What the named updates set -/

@[simp] theorem withPending_pending (s : State) (cs : List Instr) : (s.withPending cs).pending = cs := rfl

theorem raise_flags (f : Flag) (s : State) : (raise f s).out.flags = s.out.flags ++ [f] := rfl

@[simp] theorem portOf_setPort_same (s : State) (p : Port) (ps : PortState) : portOf (setPort s p ps) p = ps := by
  cases p <;> rfl

theorem portOf_setPort_other (s : State) (p : Port) (ps : PortState) :
    portOf (setPort s p ps) (otherPort p) = portOf s (otherPort p) := by cases p <;> rfl

@[simp] theorem portOf_raise (f : Flag) (s : State) (p : Port) : portOf (raise f s) p = portOf s p := by
  cases p <;> rfl

@[simp] theorem queueOfPort_setQueue (s : State) (p : Port) (qs : List Request) :
    queueOfPort (setQueue p qs s) p = qs := by cases p <;> rfl

@[simp] theorem changeWindows_windows (r : Ride) (f : List Window → List Window) (s : State) :
    (changeWindows r f s).calendar.windows = upd s.calendar.windows r f := rfl

@[simp] theorem changeWindows_flex (r : Ride) (f : List Window → List Window) (s : State) :
    (changeWindows r f s).calendar.flex = s.calendar.flex := rfl

@[simp] theorem changeWindows_profiles (r : Ride) (f : List Window → List Window) (s : State) :
    (changeWindows r f s).calendar.profiles = s.calendar.profiles := rfl

@[simp] theorem changeFlex_windows (r : Ride) (f : List Holder → List Holder) (s : State) :
    (changeFlex r f s).calendar.windows = s.calendar.windows := rfl

@[simp] theorem changeFlex_flex (r : Ride) (f : List Holder → List Holder) (s : State) :
    (changeFlex r f s).calendar.flex = upd s.calendar.flex r f := rfl

@[simp] theorem changeFlex_profiles (r : Ride) (f : List Holder → List Holder) (s : State) :
    (changeFlex r f s).calendar.profiles = s.calendar.profiles := rfl

@[simp] theorem changeBoard_boards (b : BoardIx) (f : Board → Board) (s : State) :
    (changeBoard b f s).boards = upd s.boards b f := rfl

@[simp] theorem setTallies_tallies (ys : Table 48 Tally) (s : State) : (setTallies ys s).tallies = ys := rfl

/-- An event while RESET_N is high is taken (log 9). -/
theorem event_taken (f : State → State) {s : State} (h : s.resetLow = false) : event f s = .next (f s) := by
  simp [event, h]

/-- While RESET_N is low no event is taken. -/
theorem event_held (f : State → State) {s : State} (h : s.resetLow = true) : event f s = .next s := by
  simp [event, h]

end Sys2Proof.Machine
end

