-- ==== Sys2Proof/Laws/Frames.lean ====
section
/-! SUPPORT. What each shared operation may change: each lemma says that the operation answers the state with the named
fields replaced and nothing else. -/

namespace Sys2Proof.Machine

/-! ## Ports and producers -/

theorem setPort_frame (s : State) (p : Port) (ps : PortState) :
    ∃ a b, setPort s p ps = { s with fieldPort := a, trunkPort := b } := by
  cases p <;> exact ⟨_, _, rfl⟩

theorem writeFrame_frame (p : Port) (f : PartFrame) (s : State) :
    ∃ a b, writeFrame p f s = { s with fieldPort := a, trunkPort := b } := setPort_frame ..

theorem beginWait_frame (p : Port) (w : Producer) (s : State) :
    ∃ a b, beginWait p w s = { s with fieldPort := a, trunkPort := b } := setPort_frame ..

theorem endWait_frame (p : Port) (w : Producer) (s : State) :
    ∃ a b, endWait p w s = { s with fieldPort := a, trunkPort := b } := setPort_frame ..

/-- R168: who may write, of the producers that wait. -/
theorem hasTurn_iff (ps : PortState) (who : Producer) :
    hasTurn ps who = true ↔ ps.waiters.head? = some who ∧ ps.partQueue.length < 128 := by
  simp only [hasTurn, Bool.and_eq_true, beq_iff_eq, decide_eq_true_eq]
  exact Iff.rfl

theorem writeAll_frame (w : Producer) (fs : List (Port × PartFrame)) (s : State) :
    ∃ a b, (writeAll w fs s).1 = { s with fieldPort := a, trunkPort := b } := by
  induction fs generalizing s with
  | nil => exact ⟨_, _, rfl⟩
  | cons x rest ih =>
    obtain ⟨p, f⟩ := x
    unfold writeAll
    split
    · obtain ⟨a, b, h⟩ := writeFrame_frame p f s
      obtain ⟨a', b', h'⟩ := ih (writeFrame p f s)
      exact ⟨a', b', by rw [h', h]⟩
    · exact beginWait_frame p w s

theorem send_frame (w : Producer) (box new : List (Port × PartFrame)) (s : State) :
    ∃ a b, (send w box new s).1 = { s with fieldPort := a, trunkPort := b } := by
  cases box with
  | nil => exact writeAll_frame w new s
  | cons x xs => exact ⟨_, _, rfl⟩

theorem resume_frame (w : Producer) (box : List (Port × PartFrame)) (s : State) :
    ∃ a b, (resume w box s).1 = { s with fieldPort := a, trunkPort := b } := by
  rcases box with _ | ⟨⟨p, f⟩, rest⟩
  · exact ⟨_, _, rfl⟩
  · obtain ⟨a, b, h⟩ := endWait_frame p w s
    obtain ⟨a', b', h'⟩ := writeFrame_frame p f (endWait p w s)
    obtain ⟨a'', b'', h''⟩ := writeAll_frame w rest (writeFrame p f (endWait p w s))
    exact ⟨a'', b'', by unfold resume; rw [h'', h', h]⟩

/-! ## The phase and the ride states -/

theorem setPhase_frame (p : Phase) (s : State) :
    ∃ o, setPhase p s = { s with day := { s.day with phase := p }, out := o } := by
  unfold setPhase
  split
  · next h => subst h; exact ⟨_, rfl⟩
  · simp only []
    split <;> exact ⟨_, rfl⟩

/-- A change of phase changes no hand-off but the flags and the changes to LAST_CALL. -/
theorem setPhase_out (p : Phase) (s : State) :
    ∃ fs n, (setPhase p s).out = { s.out with flags := fs, lastCalls := n } := by
  unfold setPhase
  split
  · exact ⟨_, _, rfl⟩
  · simp only []
    split <;> exact ⟨_, _, rfl⟩

theorem restartTimer_frame (s : State) (r : Ride) : ∃ x, restartTimer s r = { s with rides := x } := ⟨_, rfl⟩

theorem enterState_frame (r : Ride) (st : RideState) (s : State) :
    ∃ x o, enterState r st s = { s with rides := x, out := o } := by
  cases st <;> exact ⟨_, _, rfl⟩

theorem reportState_frame (r : Ride) (st : RideState) (s : State) :
    ∃ x o, reportState r st s = { s with rides := x, out := o } := by
  unfold reportState
  split
  · exact ⟨_, _, rfl⟩
  · exact enterState_frame r st s

/-- A change of ride state hands nothing to the tallies but its state. -/
theorem enterState_out (r : Ride) (st : RideState) (s : State) :
    ∃ f c y b, (enterState r st s).out =
      { s.out with flags := f, calendarStates := c, tallyStates := y, boardStates := b } := by
  cases st <;> exact ⟨_, _, _, _, rfl⟩

/-! ## The tallies -/

theorem emptyTallies_frame (m : Nat) (s : State) :
    ∃ y p, emptyTallies m s = { s with tallies := y, out := { s.out with posted := p } } := ⟨_, _, rfl⟩

theorem postingTick_frame (s : State) :
    ∃ y p, postingTick s = { s with tallies := y, out := { s.out with posted := p } } := ⟨_, _, rfl⟩

theorem takeStandby_frame (h : StandbyHandoff) (s : State) :
    ∃ y f, takeStandby h s = { s with tallies := y, out := { s.out with flags := f } } := by
  unfold takeStandby
  split
  · simp only []
    split <;> exact ⟨_, _, rfl⟩
  · exact ⟨_, _, rfl⟩

theorem takeDispatch_frame (h : DispatchHandoff) (s : State) :
    ∃ y m, takeDispatch h s = { s with tallies := y, management := m } := by
  unfold takeDispatch
  split <;> exact ⟨_, _, rfl⟩

theorem takeTallyState_frame (r : Ride) (st : RideState) (s : State) :
    ∃ y p, takeTallyState r st s = { s with tallies := y, out := { s.out with posted := p } } := by
  unfold takeTallyState
  split <;> exact ⟨_, _, rfl⟩

/-! ## The Calendar and the Guest Table -/

theorem grantPass_frame (c : Credential) (p : Pass) (s : State) :
    ∃ g f, grantPass c p s = { s with guests := g, out := { s.out with flags := f } } := by
  unfold grantPass
  simp only []
  split <;> exact ⟨_, _, rfl⟩

theorem handItems_frame (is : List WorkItem) (s : State) :
    ∃ w, handItems is s = { s with out := { s.out with workItems := w } } := by
  cases is <;> exact ⟨_, rfl⟩

theorem placeGrant_frame (r : Ride) (k : Nat) (c : Credential) (p : Nat) (o : Origin) (s : State) :
    ∃ ca g f, placeGrant r k c p o s = { s with calendar := ca, guests := g, out := { s.out with flags := f } } := by
  unfold placeGrant
  split
  · exact ⟨_, _, _, rfl⟩
  · next w _ =>
    obtain ⟨g, f, h⟩ := grantPass_frame c ⟨r, p, .window k, 0, o, minuteNow s⟩ (putWindow r k (placeIn ⟨c, p⟩ w) s)
    rw [h]
    exact ⟨_, _, _, rfl⟩

theorem earlyRedemption_frame (r : Ride) (k : Nat) (s : State) :
    ∃ ws w, earlyRedemption r k s =
      { s with calendar := { s.calendar with windows := ws }, out := { s.out with workItems := w } } := by
  unfold earlyRedemption
  split
  · exact ⟨_, _, rfl⟩
  · next w _ =>
    split
    · split
      · exact ⟨_, _, rfl⟩
      · exact ⟨_, _, rfl⟩
      all_goals first
        | exact ⟨_, _, rfl⟩
        | (obtain ⟨x, h⟩ := handItems_frame (itemFor r k .displace w) (putWindow r k { w with state := .lost } s)
           rw [h]
           exact ⟨_, _, rfl⟩)
    · exact ⟨_, _, rfl⟩

theorem windowEnd_frame (r : Ride) (k : Nat) (s : State) :
    ∃ ws e, windowEnd r k s =
      { s with calendar := { s.calendar with windows := ws }, out := { s.out with evaluations := e } } := by
  unfold windowEnd
  split
  · exact ⟨_, _, rfl⟩
  · split <;> exact ⟨_, _, rfl⟩

theorem closingTime_frame (r : Ride) (k : Nat) (s : State) :
    ∃ ws w, closingTime r k s =
      { s with calendar := { s.calendar with windows := ws }, out := { s.out with workItems := w } } := by
  unfold closingTime
  split
  · exact ⟨_, _, rfl⟩
  · next w _ =>
    split
    · obtain ⟨x, h⟩ := handItems_frame (itemFor r k .expire w) (putWindow r k { w with state := .past } s)
      rw [h]
      exact ⟨_, _, rfl⟩
    · exact ⟨_, _, rfl⟩

theorem takeCalendarState_frame (r : Ride) (st : RideState) (s : State) :
    ∃ ws w, takeCalendarState r st s =
      { s with calendar := { s.calendar with windows := ws }, out := { s.out with workItems := w } } := by
  unfold takeCalendarState
  split
  · obtain ⟨x, h⟩ := handItems_frame (lostItems r (look s.calendar.windows r)) (changeWindows r (List.map loseRedeemable) s)
    rw [h]
    exact ⟨_, _, rfl⟩
  · exact ⟨_, _, rfl⟩

theorem takeRecomputation_frame (c : RecomputationClaim) (s : State) :
    ∃ ws, takeRecomputation c s = { s with calendar := { s.calendar with windows := ws } } := ⟨_, rfl⟩

theorem displaceClaim_frame {r : Ride} {k : Nat} {b : Bool} {s t : State} {d : Displaced}
    (h : displaceClaim r k b s = some (d, t)) : ∃ c g, t = { s with calendar := c, guests := g } := by
  unfold displaceClaim at h
  split at h
  · cases h
  · split at h
    · cases h
    · simp only [] at h
      split at h <;> (cases h; exact ⟨_, _, rfl⟩)

theorem expireClaim_frame {r : Ride} {k : Nat} {s t : State} {e : Expired}
    (h : expireClaim r k s = some (e, t)) : ∃ c g, t = { s with calendar := c, guests := g } := by
  unfold expireClaim at h
  split at h
  · cases h
  · split at h
    · cases h
    · cases h; exact ⟨_, _, rfl⟩

theorem removalClaim_frame {c : Credential} {r : Ride} {s t : State} {x : Removed}
    (h : removalClaim c r s = some (x, t)) : ∃ c g, t = { s with calendar := c, guests := g } := by
  unfold removalClaim at h
  split at h
  · cases h
  · split at h
    · split at h
      · cases h
      · split at h
        · cases h
        · cases h; exact ⟨_, _, rfl⟩
    · split at h
      · cases h
      · cases h; exact ⟨_, _, rfl⟩

theorem redemptionClaim_frame (c : Credential) (r : Ride) (s : State) :
    ∃ ca g, (redemptionClaim c r s).2 = { s with calendar := ca, guests := g } := by
  unfold redemptionClaim
  split
  · exact ⟨_, _, rfl⟩
  · split
    · split
      · exact ⟨_, _, rfl⟩
      · split
        · exact ⟨_, _, rfl⟩
        · split
          · exact ⟨_, _, rfl⟩
          · exact ⟨_, _, rfl⟩
          · exact ⟨_, _, rfl⟩
          · split <;> exact ⟨_, _, rfl⟩
    · split
      · exact ⟨_, _, rfl⟩
      · split <;> exact ⟨_, _, rfl⟩

/-! ## The Condition Monitor -/

theorem takeRecord_frame (d : DispatchRecord) (s : State) : ∃ m, takeRecord d s = { s with monitors := m } := by
  unfold takeRecord
  split <;> exact ⟨_, rfl⟩

theorem takeEvaluation_frame (h : EvaluationHandoff) (s : State) :
    ∃ t m f rc, takeEvaluation h s =
      { s with rideTable := t, monitors := m, out := { s.out with flags := f, recomputations := rc } } := by
  unfold takeEvaluation
  split
  · simp only []
    split <;> exact ⟨_, _, _, _, rfl⟩
  · exact ⟨_, _, _, _, rfl⟩

/-! ## The Board Composer -/

/-- What an event of the Board Composer may change: frames join the FIELD part output queue, which they never bring
above 96, and the states of boards change. -/
def BoardsOnly (s t : State) : Prop :=
  (∃ q x, t = { s with
    fieldPort := { s.fieldPort with partQueue := s.fieldPort.partQueue ++ q }, boards := x }) ∧
    t.fieldPort.partQueue.length ≤ max s.fieldPort.partQueue.length 96

theorem BoardsOnly.boards (s : State) (x : Table 64 Board) : BoardsOnly s { s with boards := x } :=
  ⟨⟨[], x, by rw [List.append_nil]⟩, Nat.le_max_left ..⟩

theorem BoardsOnly.refl (s : State) : BoardsOnly s s := BoardsOnly.boards s s.boards

theorem BoardsOnly.trans {s t u : State} (h : BoardsOnly s t) (h' : BoardsOnly t u) : BoardsOnly s u := by
  obtain ⟨⟨q, x, rfl⟩, hl⟩ := h
  obtain ⟨⟨q', x', rfl⟩, hl'⟩ := h'
  exact ⟨⟨q ++ q', x', by rw [List.append_assoc]⟩, by simp only [] at hl hl' ⊢; omega⟩

theorem writeBoard_frame (b : BoardIx) (c : BoardContent) (s : State) : BoardsOnly s (writeBoard b c s) := by
  unfold writeBoard
  split
  · next h =>
    refine ⟨⟨_, _, rfl⟩, ?_⟩
    simp only [changeBoard, writeFrame, portOf, setPort, List.length_append, List.length_cons, List.length_nil,
      Config.boardLimit] at h ⊢
    omega
  · exact BoardsOnly.boards ..

theorem frameDue_frame (b : BoardIx) (c : BoardContent) (s : State) : BoardsOnly s (frameDue b c s) := by
  unfold frameDue
  split
  · split
    · exact writeBoard_frame b c s
    · exact BoardsOnly.boards ..
  · exact BoardsOnly.refl s

theorem boardChanged_frame (b : BoardIx) (s : State) : BoardsOnly s (boardChanged b s) := by
  unfold boardChanged
  simp only []
  split
  · exact frameDue_frame ..
  · exact BoardsOnly.refl s

theorem boardsFold_frame (bs : List BoardIx) (s : State) :
    BoardsOnly s (bs.foldl (fun s b => boardChanged b s) s) := by
  induction bs generalizing s with
  | nil => exact BoardsOnly.refl s
  | cons b bs ih => exact (boardChanged_frame b s).trans (ih (boardChanged b s))

theorem boardsChanged_frame (order : List BoardIx) (which : BoardIx → Bool) (s : State) :
    BoardsOnly s (boardsChanged order which s) := boardsFold_frame ..

theorem setHeld_frame (r : Ride) (v : Posted) (order : List BoardIx) (s : State) :
    ∃ h, BoardsOnly { s with heldValues := h } (setHeld r v order s) := by
  unfold setHeld
  split
  · exact ⟨_, BoardsOnly.refl s⟩
  · exact ⟨_, boardsChanged_frame ..⟩

theorem takeBoardState_frame (r : Ride) (order : List BoardIx) (s : State) :
    ∃ h, BoardsOnly { s with heldValues := h } (takeBoardState r order s) := by
  unfold takeBoardState
  split
  · exact ⟨_, BoardsOnly.refl s⟩
  all_goals exact setHeld_frame ..

theorem changeMode_frame (b : BoardIx) (m : BoardModeKind) (s : State) : BoardsOnly s (changeMode b m s) := by
  unfold changeMode
  cases m with
  | live => exact (BoardsOnly.boards ..).trans (frameDue_frame ..)
  | hold => exact BoardsOnly.boards ..
  | blank =>
    simp only []
    split
    · exact (BoardsOnly.boards s _).trans (frameDue_frame b .blank _)
    · exact (BoardsOnly.boards s _).trans (BoardsOnly.boards _ _)

theorem boardWritten_frame (b : BoardIx) (old : BoardEntry) (s : State) : BoardsOnly s (boardWritten b old s) := by
  unfold boardWritten
  simp only []
  split
  · split
    · exact BoardsOnly.refl s
    · exact BoardsOnly.boards ..
  · split
    · exact frameDue_frame ..
    · exact boardChanged_frame ..

theorem spacingEnd_frame (b : BoardIx) (s : State) : BoardsOnly s (spacingEnd b s) := by
  unfold spacingEnd
  split
  · exact writeBoard_frame ..
  · exact BoardsOnly.refl s

theorem refreshBoard_frame (b : BoardIx) (s : State) : BoardsOnly s (refreshBoard b s) := by
  unfold refreshBoard
  split
  · exact writeBoard_frame ..
  · exact BoardsOnly.refl s

/-! ## The Calendar Walker -/

theorem takeWorkItems_frame (is : List WorkItem) (s : State) : ∃ w, takeWorkItems is s = { s with walker := w } := by
  unfold takeWorkItems
  split <;> exact ⟨_, rfl⟩

theorem completeItem_frame (i : WorkItem) (s : State) :
    ∃ w e, completeItem i s = { s with walker := w, out := { s.out with displacementEnds := e } } := by
  unfold completeItem
  simp only []
  split
  · split <;> exact ⟨_, _, rfl⟩
  · exact ⟨_, _, rfl⟩

theorem nextItem_frame (s : State) :
    ∃ w f, nextItem s = { s with walker := w, out := { s.out with flags := f } } := by
  unfold nextItem
  split <;> exact ⟨_, _, rfl⟩

theorem sendChange_frame (f : Option PartFrame) (s : State) :
    ∃ p w, sendChange f s = { s with trunkPort := p, walker := w } := by
  cases f with
  | none => exact ⟨_, _, rfl⟩
  | some f =>
    unfold sendChange
    simp only []
    split <;> exact ⟨_, _, rfl⟩

theorem finishStep_frame (i : WorkItem) (f : Option PartFrame) (left : Nat) (s : State) :
    ∃ p w fl e, finishStep i f left s =
      { s with trunkPort := p, walker := w, out := { s.out with flags := fl, displacementEnds := e } } := by
  unfold finishStep
  split
  · simp only []
    obtain ⟨w, e, h⟩ := completeItem_frame i s
    obtain ⟨p, w', h'⟩ := sendChange_frame f (completeItem i s)
    split
    · rw [h', h]; exact ⟨_, _, _, _, rfl⟩
    · obtain ⟨w'', fl, h''⟩ := nextItem_frame (sendChange f (completeItem i s))
      rw [h'', h', h]; exact ⟨_, _, _, _, rfl⟩
  · obtain ⟨p, w', h'⟩ := sendChange_frame f s
    rw [h']; exact ⟨_, _, _, _, rfl⟩

theorem displaceStep_frame (i : WorkItem) (s : State) :
    ∃ c g m p w fl e, displaceStep i s =
      { s with calendar := c, guests := g, management := m, trunkPort := p, walker := w,
               out := { s.out with flags := fl, displacementEnds := e } } := by
  unfold displaceStep
  split
  · obtain ⟨p, w, fl, e, h⟩ := finishStep_frame i none 0 s
    rw [h]; exact ⟨_, _, _, _, _, _, _, rfl⟩
  · next d s1 hd =>
    obtain ⟨c, g, h1⟩ := displaceClaim_frame hd
    subst h1
    simp only []
    split
    · next heq =>
      obtain ⟨p, w, fl, e, h⟩ := finishStep_frame i _ d.left (changeCounts i.ride countShifted { s with calendar := c, guests := g })
      rw [h]; exact ⟨_, _, _, _, _, _, _, rfl⟩
    · obtain ⟨p, w, fl, e, h⟩ := finishStep_frame i _ d.left (changeCounts i.ride countFlexed { s with calendar := c, guests := g })
      rw [h]; exact ⟨_, _, _, _, _, _, _, rfl⟩

theorem expireStep_frame (i : WorkItem) (s : State) :
    ∃ c g m p w fl e, expireStep i s =
      { s with calendar := c, guests := g, management := m, trunkPort := p, walker := w,
               out := { s.out with flags := fl, displacementEnds := e } } := by
  unfold expireStep
  split
  · obtain ⟨p, w, fl, e, h⟩ := finishStep_frame i none 0 s
    rw [h]; exact ⟨_, _, _, _, _, _, _, rfl⟩
  · next d s1 hd =>
    obtain ⟨c, g, h1⟩ := expireClaim_frame hd
    subst h1
    obtain ⟨p, w, fl, e, h⟩ := finishStep_frame i _ d.left (changeCounts i.ride countExpired { s with calendar := c, guests := g })
    rw [h]; exact ⟨_, _, _, _, _, _, _, rfl⟩

theorem writeChange_frame (f : PartFrame) (s : State) :
    ∃ p w fl, writeChange f s = { s with trunkPort := p, walker := w, out := { s.out with flags := fl } } := by
  unfold writeChange
  simp only []
  split
  · exact ⟨_, _, _, rfl⟩
  · split
    · exact ⟨_, _, _, rfl⟩
    · generalize hx : ({ writeFrame Port.trunk f (endWait Port.trunk Producer.walker s) with
        walker := _ } : State) = x
      obtain ⟨w, fl, h⟩ := nextItem_frame x
      rw [h, ← hx]; exact ⟨_, _, _, rfl⟩

/-! ## The Pass Engine -/

theorem engineSend_frame (fs : List (Port × PartFrame)) (s : State) :
    ∃ a b e, engineSend fs s = { s with fieldPort := a, trunkPort := b, engine := { s.engine with outbox := e } } := by
  obtain ⟨a, b, h⟩ := send_frame .passEngine s.engine.outbox fs s
  refine ⟨a, b, (send .passEngine s.engine.outbox fs s).2, ?_⟩
  unfold engineSend
  simp only [h]

theorem answerFull_frame (q : Request) (s : State) :
    ∃ a b, answerFull q s = { s with fieldPort := a, trunkPort := b } := by
  unfold answerFull
  simp only []
  split
  · exact writeFrame_frame ..
  · obtain ⟨a, b, h⟩ := beginWait_frame q.port .requestIntake s
    obtain ⟨a', b', h'⟩ := setPort_frame (beginWait q.port .requestIntake s) q.port
      { portOf (beginWait q.port .requestIntake s) q.port with fullReply := some (replyFrame q .queueFull).2 }
    exact ⟨a', b', by rw [h', h]⟩

theorem joinQueue_frame (q : Request) (s : State) :
    ∃ a b e, joinQueue q s = { s with fieldPort := a, trunkPort := b, engine := e } := by
  unfold joinQueue
  split
  · cases q.port <;> exact ⟨_, _, _, rfl⟩
  · obtain ⟨a, b, h⟩ := answerFull_frame q s
    exact ⟨a, b, _, h⟩

theorem sortRequest_frame (q : Request) (s : State) :
    ∃ a b e, sortRequest q s = { s with fieldPort := a, trunkPort := b, engine := e } := by
  unfold sortRequest
  split
  · obtain ⟨a, b, h⟩ := setPort_frame s q.port { portOf s q.port with heldRequest := some q }
    exact ⟨a, b, _, h⟩
  · exact joinQueue_frame q s

theorem writeFull_frame (p : Port) (f : PartFrame) (s : State) :
    ∃ a b e, writeFull p f s = { s with fieldPort := a, trunkPort := b, engine := e } := by
  unfold writeFull
  simp only []
  obtain ⟨a, b, h⟩ := endWait_frame p .requestIntake s
  obtain ⟨a1, b1, h1⟩ := writeFrame_frame p f (endWait p .requestIntake s)
  obtain ⟨a2, b2, h2⟩ := setPort_frame (writeFrame p f (endWait p .requestIntake s)) p
    { portOf (writeFrame p f (endWait p .requestIntake s)) p with fullReply := none, heldRequest := none }
  split
  · rw [h2, h1, h]; exact ⟨_, _, _, rfl⟩
  · next q _ =>
    obtain ⟨a3, b3, e3, h3⟩ := joinQueue_frame q (setPort (writeFrame p f (endWait p .requestIntake s)) p
      { portOf (writeFrame p f (endWait p .requestIntake s)) p with fullReply := none, heldRequest := none })
    rw [h3, h2, h1, h]; exact ⟨_, _, _, rfl⟩

theorem countReasons_frame (rs : List (Option Ride × Reason)) (s : State) :
    ∃ m, countReasons rs s = { s with management := m } := by
  unfold countReasons
  induction rs generalizing s with
  | nil => exact ⟨_, rfl⟩
  | cons x xs ih =>
    rw [List.foldl_cons]
    rcases x with ⟨_ | r, y⟩
    · exact ih s
    · obtain ⟨m, h⟩ := ih (changeCounts r (fun c => { c with refused := countUp c.refused 1 }) s)
      exact ⟨m, h⟩

theorem flagFull_frame (rs : List (Option Ride × Reason)) (s : State) :
    ∃ f, flagFull rs s = { s with out := { s.out with flags := f } } := by
  unfold flagFull
  induction rs generalizing s with
  | nil => exact ⟨_, rfl⟩
  | cons x xs ih =>
    rw [List.foldl_cons]
    split
    · obtain ⟨f, h⟩ := ih (raise .guestFull s)
      exact ⟨f, h⟩
    · exact ih s

theorem judgeRequest_frame (o : Origin) (c : Credential) (p n : Nat) (ls : List Label) (e l : Option Nat) (s : State) :
    ∃ ca g m f, (judgeRequest o c p n ls e l s).2 =
      { s with calendar := ca, guests := g, management := m, out := { s.out with flags := f } } := by
  unfold judgeRequest
  split
  · exact ⟨_, _, _, _, rfl⟩
  · split
    · exact ⟨_, _, _, _, rfl⟩
    · split
      · exact ⟨_, _, _, _, rfl⟩
      · next rs _ =>
        obtain ⟨f, h⟩ := flagFull_frame rs s
        obtain ⟨m, h'⟩ := countReasons_frame rs (flagFull rs s)
        exact ⟨_, _, _, _, by show countReasons rs (flagFull rs s) = _; rw [h', h]⟩
      · next r lb k rs _ =>
        obtain ⟨ca, g, f, h⟩ := placeGrant_frame r k c p o s
        obtain ⟨f', h'⟩ := flagFull_frame rs (placeGrant r k c p o s)
        obtain ⟨m, h''⟩ := countReasons_frame rs (flagFull rs (placeGrant r k c p o s))
        have h3 : countReasons rs (flagFull rs (placeGrant r k c p o s)) =
            { s with calendar := ca, guests := g, management := m, out := { s.out with flags := f' } } := by
          rw [h'', h', h]
        exact ⟨ca, g, _, f', (congrArg (changeCounts r fun c => { c with granted := countUp c.granted 1 }) h3).trans rfl⟩

theorem serveCancel_frame (c : Credential) (l : Label) (s : State) :
    ∃ ca g m, (serveCancel c l s).2 = { s with calendar := ca, guests := g, management := m } := by
  unfold serveCancel
  split
  · exact ⟨_, _, _, rfl⟩
  · split
    · exact ⟨_, _, _, rfl⟩
    · split
      · exact ⟨_, _, _, rfl⟩
      · split
        · exact ⟨_, _, _, rfl⟩
        · next h =>
          obtain ⟨ca, g, h'⟩ := removalClaim_frame h
          subst h'; exact ⟨_, _, _, rfl⟩

theorem replyFromQueue_frame (o : Origin) (q : Request) (x : PassResult) (s : State) :
    ∃ a b e, replyFromQueue o q x s = { s with fieldPort := a, trunkPort := b, engine := e } := by
  unfold replyFromQueue
  obtain ⟨a, b, e, h⟩ := engineSend_frame [replyFrame q x] { s with engine := countServe o s.engine }
  exact ⟨a, b, _, h⟩

theorem setAside_frame (o : Origin) (q : Request) (r : Ride) (s : State) :
    ∃ a b e, setAside o q r s = { s with fieldPort := a, trunkPort := b, engine := e } := by
  unfold setAside
  split
  · exact ⟨_, _, _, rfl⟩
  · exact replyFromQueue_frame ..

theorem servePassRequest_frame (o : Origin) (q : Request) (c : Credential) (p n : Nat) (ls : List Label)
    (e l : Option Nat) (s : State) :
    ∃ a b en ca g m f, servePassRequest o q c p n ls e l s =
      { s with fieldPort := a, trunkPort := b, engine := en, calendar := ca, guests := g, management := m,
               out := { s.out with flags := f } } := by
  unfold servePassRequest
  obtain ⟨ca, g, m, f, h⟩ := judgeRequest_frame o c p n ls e l s
  split
  · next r s1 heq =>
    rw [heq] at h; subst h
    obtain ⟨a, b, en, h'⟩ := replyFromQueue_frame o q r
      { s with calendar := ca, guests := g, management := m, out := { s.out with flags := f } }
    exact ⟨a, b, en, ca, g, m, f, h'⟩
  · next r s1 heq =>
    rw [heq] at h; subst h
    obtain ⟨a, b, en, h'⟩ := setAside_frame o q r
      { s with calendar := ca, guests := g, management := m, out := { s.out with flags := f } }
    exact ⟨a, b, en, ca, g, m, f, h'⟩

theorem serveHeldEntry_frame (i : Nat) (x : HeldEntry) (s : State) :
    ∃ a b en ca g m f, serveHeldEntry i x s =
      { s with fieldPort := a, trunkPort := b, engine := en, calendar := ca, guests := g, management := m,
               out := { s.out with flags := f } } := by
  unfold serveHeldEntry
  simp only []
  split
  · next c p n ls e l _ =>
    obtain ⟨ca, g, m, f, h⟩ := judgeRequest_frame (originOf x.request.port) c p n ls e l
      { s with engine := { s.engine with heldList := s.engine.heldList.eraseIdx i } }
    split
    · next r s1 heq =>
      rw [heq] at h; subst h
      obtain ⟨a, b, en, h'⟩ := engineSend_frame [replyFrame x.request r] _
      rw [h']; exact ⟨_, _, _, _, _, _, _, rfl⟩
    · next r s1 heq =>
      rw [heq] at h; subst h
      exact ⟨_, _, _, _, _, _, _, rfl⟩
  · next c l _ =>
    obtain ⟨ca, g, m, h⟩ := serveCancel_frame c l
      { s with engine := { s.engine with heldList := s.engine.heldList.eraseIdx i } }
    rw [h]
    obtain ⟨a, b, en, h'⟩ := engineSend_frame [replyFrame x.request (serveCancel c l
      { s with engine := { s.engine with heldList := s.engine.heldList.eraseIdx i } }).1] _
    rw [h']; exact ⟨_, _, _, _, _, _, _, rfl⟩
  · obtain ⟨a, b, en, h'⟩ := engineSend_frame [replyFrame x.request (serveList _
      { s with engine := { s.engine with heldList := s.engine.heldList.eraseIdx i } })]
      { s with engine := { s.engine with heldList := s.engine.heldList.eraseIdx i } }
    rw [h']; exact ⟨_, _, _, _, _, _, _, rfl⟩

theorem expireHeld_frame (s : State) :
    ∃ a b e, expireHeld s = { s with fieldPort := a, trunkPort := b, engine := e } := by
  unfold expireHeld
  split
  · exact ⟨_, _, _, rfl⟩
  · next e rest _ =>
    obtain ⟨a, b, x, h⟩ := engineSend_frame [replyFrame e.request .retry] { s with engine := { s.engine with heldList := rest } }
    exact ⟨a, b, _, h⟩

theorem expireAllHeld_frame (n : Nat) (s : State) :
    ∃ a b e, expireAllHeld n s = { s with fieldPort := a, trunkPort := b, engine := e } := by
  induction n generalizing s with
  | zero => exact ⟨_, _, _, rfl⟩
  | succ n ih =>
    unfold expireAllHeld
    split
    · exact ⟨_, _, _, rfl⟩
    · obtain ⟨a, b, e, h⟩ := expireHeld_frame s
      obtain ⟨a', b', e', h'⟩ := ih (expireHeld s)
      exact ⟨a', b', e', by rw [h', h]⟩

theorem closeEngine_frame (s : State) :
    ∃ a b e, closeEngine s = { s with fieldPort := a, trunkPort := b, engine := e } := by
  unfold closeEngine
  obtain ⟨a, b, x, h⟩ := engineSend_frame
    ((s.engine.heldList.map HeldEntry.request ++ s.engine.kiosk ++ s.engine.remote).map fun q => replyFrame q .phaseClosed)
    { s with engine := { s.engine with kiosk := [], remote := [], heldList := [], lastQueue := none, run := 0 } }
  exact ⟨a, b, _, h⟩

/-! ## The Admission Unit and the Ride State Unit -/

theorem sendVerdict_frame (mode : ActedMode) (f : PartFrame) (s : State) :
    ∃ a b x, sendVerdict mode f s = { s with fieldPort := a, trunkPort := b, admission := x } := by
  have key : ∀ fs, ∃ a b x, ({ (send .admission s.admission.outbox fs s).1 with
      admission := { outbox := (send .admission s.admission.outbox fs s).2 } } : State) =
      { s with fieldPort := a, trunkPort := b, admission := x } := by
    intro fs
    obtain ⟨a, b, h⟩ := send_frame .admission s.admission.outbox fs s
    exact ⟨a, b, { outbox := (send .admission s.admission.outbox fs s).2 }, by simp only [h]⟩
  cases mode <;> exact key _

theorem judgeStandby_frame (r : Ride) (n t : Nat) (s : State) :
    ∃ m o, (judgeStandby r n t s).2 = { s with management := m, out := { s.out with standbys := o } } := by
  unfold judgeStandby
  split <;> exact ⟨_, _, rfl⟩

theorem judgeMerge_frame (c : Credential) (r : Ride) (s : State) :
    ∃ ca g m o, (judgeMerge c r s).2 =
      { s with calendar := ca, guests := g, management := m, out := { s.out with credits := o } } := by
  unfold judgeMerge
  simp only []
  obtain ⟨ca, g, h⟩ := redemptionClaim_frame c r s
  split <;> (simp only [h]; exact ⟨_, _, _, _, rfl⟩)

theorem judgeTap_frame (rd : Reader) (c : Credential) (n t : Nat) (s : State) :
    ∃ ca g m o o', (judgeTap rd c n t s).2 =
      { s with calendar := ca, guests := g, management := m, out := { s.out with standbys := o, credits := o' } } := by
  unfold judgeTap
  split
  · exact ⟨_, _, _, _, _, rfl⟩
  · split
    · exact ⟨_, _, _, _, _, rfl⟩
    · split
      · exact ⟨_, _, _, _, _, rfl⟩
      · split
        · obtain ⟨m, o, h⟩ := judgeStandby_frame rd.ride n t s
          rw [h]; exact ⟨_, _, _, _, _, rfl⟩
        · obtain ⟨ca, g, m, o, h⟩ := judgeMerge_frame c rd.ride s
          rw [h]; exact ⟨_, _, _, _, _, rfl⟩

theorem observeTap_frame (rd : Reader) (n t : Nat) (s : State) :
    ∃ o o', observeTap rd n t s = { s with out := { s.out with standbys := o, credits := o' } } := by
  unfold observeTap
  split
  · exact ⟨_, _, rfl⟩
  · split <;> exact ⟨_, _, rfl⟩

theorem judgeAndSend_frame (mode : ActedMode) (fr : PartFrame) (rd : Reader) (c : Credential) (n t : Nat) (s : State) :
    ∃ a b x ca g m f o o', sendVerdict mode fr (judgeTap rd c n t s).2 =
      { s with fieldPort := a, trunkPort := b, admission := x, calendar := ca, guests := g, management := m,
               out := { s.out with flags := f, standbys := o, credits := o' } } := by
  obtain ⟨ca, g, m, o, o', h⟩ := judgeTap_frame rd c n t s
  obtain ⟨a, b, x, hb⟩ := sendVerdict_frame mode fr (judgeTap rd c n t s).2
  rw [hb, h]
  exact ⟨_, _, _, _, _, _, _, _, _, rfl⟩

theorem takeTap_frame (e : FieldEntry) (i : ReaderIx) (mode : ActedMode) (c : Credential) (n : Nat) (tag : Tag)
    (s : State) :
    ∃ a b x ca g m f o o', takeTap e i mode c n tag s =
      { s with fieldPort := a, trunkPort := b, admission := x, calendar := ca, guests := g, management := m,
               out := { s.out with flags := f, standbys := o, credits := o' } } := by
  unfold takeTap
  simp only []
  split
  · exact ⟨_, _, _, _, _, _, _, _, _, rfl⟩
  · split
    · obtain ⟨o, o', h⟩ := observeTap_frame (look s.readers i) n (entryTime e s) s
      rw [h]; exact ⟨_, _, _, _, _, _, _, _, _, rfl⟩
    all_goals exact judgeAndSend_frame ..

theorem dispatchState_frame (r : Ride) (s : State) :
    ∃ x f c y b, dispatchState r s = { s with rides := x, out :=
      { s.out with flags := f, calendarStates := c, tallyStates := y, boardStates := b } } := by
  unfold dispatchState
  split
  all_goals exact ⟨_, _, _, _, _, rfl⟩

theorem takeDispatchMessage_frame (e : FieldEntry) (n : Nat) (s : State) :
    ∃ x m d rc f c y b, takeDispatchMessage e n s = { s with rides := x, management := m, out :=
      { s.out with dispatches := d, records := rc, flags := f, calendarStates := c, tallyStates := y,
                   boardStates := b } } := by
  unfold takeDispatchMessage
  split
  · exact ⟨_, _, _, _, _, _, _, _, rfl⟩
  · split
    · exact ⟨_, _, _, _, _, _, _, _, rfl⟩
    · next r _ =>
      split
      · exact ⟨_, _, _, _, _, _, _, _, rfl⟩
      · obtain ⟨x, f, c, y, b, h⟩ := dispatchState_frame r (accountDispatch r n (entryTime e s) s)
        rw [h]; exact ⟨_, _, _, _, _, _, _, _, rfl⟩

theorem reportState_out (r : Ride) (st : RideState) (s : State) :
    ∃ x f c y b, reportState r st s = { s with rides := x, out :=
      { s.out with flags := f, calendarStates := c, tallyStates := y, boardStates := b } } := by
  unfold reportState
  split
  · exact ⟨_, _, _, _, _, rfl⟩
  · obtain ⟨x, o, h⟩ := enterState_frame r st s
    obtain ⟨f, c, y, b, h'⟩ := enterState_out r st s
    rw [h] at h' ⊢
    simp only [] at h'
    rw [h']; exact ⟨_, _, _, _, _, rfl⟩

theorem takeRideStatus_frame (e : FieldEntry) (code : Nat) (s : State) :
    ∃ x f c y b, takeRideStatus e code s = { s with rides := x, out :=
      { s.out with flags := f, calendarStates := c, tallyStates := y, boardStates := b } } := by
  unfold takeRideStatus
  split
  · exact ⟨_, _, _, _, _, rfl⟩
  · split
    · exact ⟨_, _, _, _, _, rfl⟩
    · split
      · exact ⟨_, _, _, _, _, rfl⟩
      · exact reportState_out ..

theorem takeCredit_frame (r : Ride) (n : Nat) (s : State) : ∃ x, takeCredit r n s = { s with rides := x } := by
  unfold takeCredit
  split <;> exact ⟨_, rfl⟩

theorem gapExpiry_frame (r : Ride) (s : State) :
    ∃ x f c y b, gapExpiry r s = { s with rides := x, out :=
      { s.out with flags := f, calendarStates := c, tallyStates := y, boardStates := b } } := by
  unfold gapExpiry
  split
  · obtain ⟨x, o, h⟩ := enterState_frame r .suspect s
    obtain ⟨f, c, y, b, h'⟩ := enterState_out r .suspect s
    rw [h] at h' ⊢
    simp only [] at h'
    rw [h']; exact ⟨_, _, _, _, _, rfl⟩
  · exact ⟨_, _, _, _, _, rfl⟩

/-! ## The Classifier and the ports -/

theorem receiveFrame_frame (p : Port) (f : RxFrame) (s : State) :
    ∃ a b x, receiveFrame p f s = { s with fieldPort := a, trunkPort := b, out := { s.out with flags := x } } := by
  unfold receiveFrame
  split
  · simp only []
    split
    · cases p <;> exact ⟨_, _, _, rfl⟩
    · exact ⟨_, _, _, rfl⟩
  · exact ⟨_, _, _, rfl⟩

theorem relayTo_frame (p : Port) (f : Frame) (s : State) :
    ∃ a b x, relayTo p f s = { s with fieldPort := a, trunkPort := b, out := { s.out with flags := x } } := by
  unfold relayTo
  simp only []
  split
  · cases p <;> exact ⟨_, _, _, rfl⟩
  · exact ⟨_, _, _, rfl⟩

theorem joinFieldIntake_frame (src : Addr) (body : FieldBody) (s : State) :
    ∃ q x, joinFieldIntake src body s = { s with fieldIntake := q, out := { s.out with flags := x } } := by
  unfold joinFieldIntake
  split <;> exact ⟨_, _, rfl⟩

theorem joinMgmtIntake_frame (e : MgmtEntry) (s : State) :
    ∃ q x, joinMgmtIntake e s = { s with mgmtIntake := q, out := { s.out with flags := x } } := by
  unfold joinMgmtIntake
  split <;> exact ⟨_, _, rfl⟩

theorem relayAfterIntake_frame (p : Port) (f : Frame) (src : Addr) (body : FieldBody) (s : State) :
    ∃ a b q x, relayTo p f (joinFieldIntake src body s) =
      { s with fieldPort := a, trunkPort := b, fieldIntake := q, out := { s.out with flags := x } } := by
  obtain ⟨q, x, h⟩ := joinFieldIntake_frame src body s
  obtain ⟨a, b, y, h'⟩ := relayTo_frame p f (joinFieldIntake src body s)
  rw [h', h]; exact ⟨_, _, _, _, rfl⟩

theorem sortTap_frame (f : Frame) (src : Addr) (i : ReaderIx) (body : List Byte) (s : State) :
    ∃ a b q x, sortTap f src i body s =
      { s with fieldPort := a, trunkPort := b, fieldIntake := q, out := { s.out with flags := x } } := by
  unfold sortTap
  simp only []
  split
  · obtain ⟨a, b, x, h⟩ := relayTo_frame .trunk f s
    rw [h]; exact ⟨_, _, _, _, rfl⟩
  · exact relayAfterIntake_frame ..
  · obtain ⟨q, x, h⟩ := joinFieldIntake_frame src _ s
    rw [h]; exact ⟨_, _, _, _, rfl⟩
  · exact relayAfterIntake_frame ..

theorem sortController_frame (f : Frame) (src : Addr) (body : FieldBody) (s : State) :
    ∃ a b q x, sortController f src body s =
      { s with fieldPort := a, trunkPort := b, fieldIntake := q, out := { s.out with flags := x } } := by
  unfold sortController
  split
  · obtain ⟨a, b, x, h⟩ := relayTo_frame .trunk f s
    rw [h]; exact ⟨_, _, _, _, rfl⟩
  · simp only []
    split
    · exact relayAfterIntake_frame ..
    · obtain ⟨q, x, h⟩ := joinFieldIntake_frame src body s
      rw [h]; exact ⟨_, _, _, _, rfl⟩

theorem sortFrame_frame (p : Port) (f : Frame) (s : State) :
    ∃ a b q q' e x, sortFrame p f s =
      { s with fieldPort := a, trunkPort := b, fieldIntake := q, mgmtIntake := q', engine := e,
               out := { s.out with flags := x } } := by
  have relay : ∀ p', ∃ a b q q' e x, relayTo p' f s =
      { s with fieldPort := a, trunkPort := b, fieldIntake := q, mgmtIntake := q', engine := e,
               out := { s.out with flags := x } } := by
    intro p'
    obtain ⟨a, b, x, h⟩ := relayTo_frame p' f s
    rw [h]; exact ⟨_, _, _, _, _, _, rfl⟩
  have request : ∀ q, ∃ a b q1 q' e x, sortRequest q s =
      { s with fieldPort := a, trunkPort := b, fieldIntake := q1, mgmtIntake := q', engine := e,
               out := { s.out with flags := x } } := by
    intro q
    obtain ⟨a, b, e, h⟩ := sortRequest_frame q s
    rw [h]; exact ⟨_, _, _, _, _, _, rfl⟩
  unfold sortFrame
  split
  · exact relay _
  · exact ⟨_, _, _, _, _, _, rfl⟩
  · split
    · exact relay _
    · split
      · unfold sortField
        split
        · exact ⟨_, _, _, _, _, _, rfl⟩
        · split
          · split
            · exact request _
            · exact ⟨_, _, _, _, _, _, rfl⟩
          · split
            · split
              · obtain ⟨a, b, q, x, h⟩ := sortTap_frame f _ _ _ s
                rw [h]; exact ⟨_, _, _, _, _, _, rfl⟩
              · exact relay _
            · obtain ⟨a, b, q, x, h⟩ := sortController_frame f _ _ s
              rw [h]; exact ⟨_, _, _, _, _, _, rfl⟩
            · obtain ⟨a, b, q, x, h⟩ := sortController_frame f _ _ s
              rw [h]; exact ⟨_, _, _, _, _, _, rfl⟩
            · exact relay _
      · unfold sortTrunk
        split
        · split
          · split
            · obtain ⟨q, x, h⟩ := joinMgmtIntake_frame _ s
              rw [h]; exact ⟨_, _, _, _, _, _, rfl⟩
            · exact ⟨_, _, _, _, _, _, rfl⟩
          · split
            · exact request _
            · exact ⟨_, _, _, _, _, _, rfl⟩
        · exact relay _

/-! ## The Management Unit -/

theorem mgmtWrite_frame (fs : List (Port × PartFrame)) (s : State) :
    ∃ a b e, mgmtWrite fs s =
      { s with fieldPort := a, trunkPort := b, management := { s.management with outbox := e } } := by
  obtain ⟨a, b, h⟩ := send_frame .management s.management.outbox fs s
  refine ⟨a, b, (send .management s.management.outbox fs s).2, ?_⟩
  unfold mgmtWrite
  simp only [h]

theorem mgmtFinish_frame (fs : List (Port × PartFrame)) (s : State) :
    ∃ a b h e, mgmtFinish fs s =
      { s with fieldPort := a, trunkPort := b, management := { s.management with hold := h, outbox := e } } := by
  unfold mgmtFinish
  split
  · obtain ⟨a, b, e, h⟩ := mgmtWrite_frame (fs ++ [noticeFrame s]) { s with management := { s.management with hold := true } }
    rw [h]; exact ⟨_, _, _, _, rfl⟩
  · obtain ⟨a, b, e, h⟩ := mgmtWrite_frame fs s
    rw [h]; exact ⟨_, _, _, _, rfl⟩

end Sys2Proof.Machine
end

