-- ==== Sys2Proof/Laws/Clock.lean ====
section
/-! SUPPORT. What the day-close action, a boundary and a movement of the clock leave as it is. -/

namespace Sys2Proof.Machine

/-- What no boundary of the clock changes: the tables, the settings, the intakes, the Admission Unit, the Management Unit
and the held values. -/
structure BoundaryKeeps (s t : State) : Prop where
  pending : t.pending = s.pending
  nodeAddress : t.nodeAddress = s.nodeAddress
  resetLow : t.resetLow = s.resetLow
  readers : t.readers = s.readers
  fieldIntake : t.fieldIntake = s.fieldIntake
  mgmtIntake : t.mgmtIntake = s.mgmtIntake
  park : t.day.park = s.day.park
  enableSet : t.day.enableSet = s.day.enableSet
  check : t.day.check = s.day.check
  rideTable : t.rideTable = s.rideTable
  profiles : t.calendar.profiles = s.calendar.profiles
  admission : t.admission = s.admission
  boardTable : t.boardTable = s.boardTable
  heldValues : t.heldValues = s.heldValues
  management : t.management = s.management

theorem BoundaryKeeps.refl (s : State) : BoundaryKeeps s s := by constructor <;> rfl

theorem BoundaryKeeps.trans {s t u : State} (h : BoundaryKeeps s t) (h' : BoundaryKeeps t u) : BoundaryKeeps s u := by
  constructor
  · exact h'.pending.trans h.pending
  · exact h'.nodeAddress.trans h.nodeAddress
  · exact h'.resetLow.trans h.resetLow
  · exact h'.readers.trans h.readers
  · exact h'.fieldIntake.trans h.fieldIntake
  · exact h'.mgmtIntake.trans h.mgmtIntake
  · exact h'.park.trans h.park
  · exact h'.enableSet.trans h.enableSet
  · exact h'.check.trans h.check
  · exact h'.rideTable.trans h.rideTable
  · exact h'.profiles.trans h.profiles
  · exact h'.admission.trans h.admission
  · exact h'.boardTable.trans h.boardTable
  · exact h'.heldValues.trans h.heldValues
  · exact h'.management.trans h.management

/-- What a boundary taken at a second keeps beside: the clock and the second's other boundaries. -/
def SecondKept (s t : State) : Prop := BoundaryKeeps s t ∧ t.day.clock = s.day.clock ∧ t.day.due = s.day.due

theorem SecondKept.refl (s : State) : SecondKept s s := ⟨BoundaryKeeps.refl s, rfl, rfl⟩

theorem SecondKept.trans {s t u : State} (h : SecondKept s t) (h' : SecondKept t u) : SecondKept s u :=
  ⟨h.1.trans h'.1, h'.2.1.trans h.2.1, h'.2.2.trans h.2.2⟩

theorem setPhase_second (p : Phase) (s : State) : SecondKept s (setPhase p s) := by
  obtain ⟨o, h⟩ := setPhase_frame p s
  rw [h]
  exact ⟨by constructor <;> rfl, rfl, rfl⟩

theorem dayCloseAction_second (s : State) : SecondKept s (dayCloseAction s) := by
  unfold dayCloseAction
  simp only []
  obtain ⟨a, b, e, h⟩ := closeEngine_frame (restRides (emptyTallies 0
    { emptyCalendar s with guests := [], walker := abandonWalk (emptyCalendar s).walker }))
  rw [h]
  exact ⟨by constructor <;> rfl, rfl, rfl⟩

theorem closeDay_second (s : State) : SecondKept s (closeDay s) :=
  (setPhase_second .night s).trans (dayCloseAction_second _)

theorem wrapMidnight_second (s : State) : SecondKept s (wrapMidnight s) := by
  unfold wrapMidnight
  split
  · exact closeDay_second s
  · exact SecondKept.refl s

theorem runBoundary_second (b : Boundary) (s : State) : SecondKept s (runBoundary b s) := by
  have boards : ∀ {t : State}, BoardsOnly s t → SecondKept s t := by
    rintro t ⟨⟨q, x, rfl⟩, -⟩
    exact ⟨by constructor <;> rfl, rfl, rfl⟩
  cases b with
  | openMinute =>
    simp only [runBoundary, openMinuteReached]
    split
    · exact setPhase_second .opened s
    · exact SecondKept.refl s
  | lastCall =>
    simp only [runBoundary, lastCallReached]
    split
    · exact setPhase_second .lastCall s
    · exact SecondKept.refl s
  | earlyRedemption r k =>
    obtain ⟨ws, w, h⟩ := earlyRedemption_frame r k s
    simp only [runBoundary, h]
    exact ⟨by constructor <;> rfl, rfl, rfl⟩
  | windowEnd r k =>
    obtain ⟨ws, w, h⟩ := windowEnd_frame r k s
    simp only [runBoundary, h]
    exact ⟨by constructor <;> rfl, rfl, rfl⟩
  | closing r k =>
    obtain ⟨ws, w, h⟩ := closingTime_frame r k s
    simp only [runBoundary, h]
    exact ⟨by constructor <;> rfl, rfl, rfl⟩
  | historyRotation => exact ⟨by constructor <;> rfl, rfl, rfl⟩
  | postingTick =>
    obtain ⟨y, p, h⟩ := postingTick_frame s
    simp only [runBoundary, h]
    exact ⟨by constructor <;> rfl, rfl, rfl⟩
  | gapExpiry r =>
    obtain ⟨x, f, c, y, b, h⟩ := gapExpiry_frame r s
    simp only [runBoundary, h]
    exact ⟨by constructor <;> rfl, rfl, rfl⟩
  | holdExpiry =>
    obtain ⟨a, b, e, h⟩ := expireAllHeld_frame Config.heldPlaces s
    simp only [runBoundary, h]
    exact ⟨by constructor <;> rfl, rfl, rfl⟩
  | spacingEnd x => exact boards (spacingEnd_frame x s)
  | refresh x => exact boards (refreshBoard_frame x s)

/-- A boundary taken by a command: it is run with itself off the list, or nothing changes. -/
theorem takeDue_cases (b : Boundary) (s : State) :
    takeDue b s = s ∨
      (b ∈ s.day.due ∧ takeDue b s = runBoundary b { s with day := { s.day with due := s.day.due.erase b } }) := by
  unfold takeDue
  split
  · next h => exact Or.inr ⟨by simpa using h, rfl⟩
  · exact Or.inl rfl

/-- A boundary that is not due is passed over. -/
theorem takeDue_absent {b : Boundary} {s : State} (h : b ∉ s.day.due) : takeDue b s = s := by
  simp [takeDue, h]

/-- A boundary that is due is run with itself off the list. -/
theorem takeDue_due {b : Boundary} {s : State} (h : b ∈ s.day.due) :
    takeDue b s = runBoundary b { s with day := { s.day with due := s.day.due.erase b } } := by
  simp [takeDue, h]

theorem takeDue_rest (b : Boundary) (s : State) : (takeDue b s).day.due = s.day.due.erase b := by
  rcases takeDue_cases b s with h | ⟨-, h⟩
  · by_cases m : b ∈ s.day.due
    · rw [takeDue_due m]
      exact (runBoundary_second b _).2.2
    · rw [h, List.erase_of_not_mem m]
  · rw [h]
    exact (runBoundary_second b _).2.2

theorem takeDue_keeps (b : Boundary) (s : State) :
    BoundaryKeeps s (takeDue b s) ∧ (takeDue b s).day.clock = s.day.clock := by
  rcases takeDue_cases b s with h | ⟨-, h⟩
  · rw [h]; exact ⟨BoundaryKeeps.refl s, rfl⟩
  · have := runBoundary_second b { s with day := { s.day with due := s.day.due.erase b } }
    rw [h]
    exact ⟨BoundaryKeeps.trans (by constructor <;> rfl) this.1, this.2.1⟩

theorem takeDues_keep (bs : List Boundary) (s : State) :
    BoundaryKeeps s (takeDues bs s) ∧ (takeDues bs s).day.clock = s.day.clock := by
  induction bs generalizing s with
  | nil => exact ⟨BoundaryKeeps.refl s, rfl⟩
  | cons b bs ih =>
    have h := takeDue_keeps b s
    have h' := ih (takeDue b s)
    exact ⟨h.1.trans h'.1, h'.2.trans h.2⟩

/-- Taking every boundary of the list of those due leaves none. -/
theorem takeDues_all (bs : List Boundary) {s : State} (h : s.day.due = bs) : (takeDues bs s).day.due = [] := by
  induction bs generalizing s with
  | nil => exact h
  | cons b bs ih => exact ih (by rw [takeDue_rest, h, List.erase_cons_head])

/-- With nothing due, nothing is taken. -/
theorem takeDues_nil (bs : List Boundary) {s : State} (h : s.day.due = []) : takeDues bs s = s := by
  induction bs with
  | nil => rfl
  | cons b bs ih =>
    show takeDues bs (takeDue b s) = s
    rw [takeDue_absent (by simp [h]), ih]

/-- Settling a second takes all its boundaries and leaves the clock. -/
theorem settle_keeps (order : List Boundary) (s : State) :
    BoundaryKeeps s (settle order s) ∧ (settle order s).day.clock = s.day.clock ∧ (settle order s).day.due = [] := by
  have h := takeDues_keep order s
  have h' := takeDues_keep (takeDues order s).day.due (takeDues order s)
  exact ⟨h.1.trans h'.1, h'.2.trans h.2, takeDues_all _ rfl⟩

/-- A second with nothing to take is settled as it is. -/
theorem settle_nil (order : List Boundary) {s : State} (h : s.day.due = []) : settle order s = s := by
  simp only [settle, takeDues_nil order h, h]
  rfl

/-- The boundaries of an order are taken one by one before the rest. -/
theorem settle_cons (b : Boundary) (order : List Boundary) (s : State) :
    settle (b :: order) s = settle order (takeDue b s) := rfl

/-- Without an order the first boundary of the list is taken first. -/
theorem settle_first {b : Boundary} {bs : List Boundary} {s : State} (h : s.day.due = b :: bs) :
    settle [] s = settle [] (takeDue b s) := by
  have e : (takeDue b s).day.due = bs := by rw [takeDue_rest, h, List.erase_cons_head]
  show takeDues s.day.due s = takeDues (takeDue b s).day.due (takeDue b s)
  rw [h, e]
  rfl

/-- The clock stands at a second, with the interval timers counted, before the boundaries of the second. -/
def counted (t : Nat) (s : State) : State := countTimers { s with day := { s.day with clock := some t } }

/-- A second reached without a midnight wrap that closes a day. -/
theorem reachSecond_plain {t : Nat} {s : State} (h : t ≠ 0 ∨ inDay s.day.phase = false) :
    reachSecond t s =
      { counted t s with day := { (counted t s).day with due := boundariesAt t (counted t s) } } := by
  have e : (if t = 0 then wrapMidnight (counted t s) else counted t s) = counted t s := by
    rcases h with h | h
    · exact if_neg h
    · have : inDay (counted t s).day.phase = false := h
      simp [wrapMidnight, this]
  unfold counted at e ⊢
  simp only [reachSecond, e]

/-- 00:00:00 reached in the day: the day is closed, and the boundaries are those of the night that follows. -/
theorem reachSecond_wraps {s : State} (h : inDay s.day.phase = true) :
    reachSecond 0 s =
      { closeDay (counted 0 s) with
        day := { (closeDay (counted 0 s)).day with due := boundariesAt 0 (closeDay (counted 0 s)) } } := by
  have e : wrapMidnight (counted 0 s) = closeDay (counted 0 s) := if_pos h
  unfold counted at e ⊢
  simp only [reachSecond, e, if_true]

/-- A second reached: the clock stands at it, and what no boundary changes is kept. -/
theorem reachSecond_keeps (t : Nat) (s : State) :
    BoundaryKeeps s (reachSecond t s) ∧ (reachSecond t s).day.clock = some t := by
  have h : BoundaryKeeps s (countTimers { s with day := { s.day with clock := some t } }) := by constructor <;> rfl
  have w := wrapMidnight_second (countTimers { s with day := { s.day with clock := some t } })
  unfold reachSecond
  simp only []
  split
  · exact ⟨h.trans (w.1.trans (by constructor <;> rfl)), w.2.1⟩
  · exact ⟨h.trans (by constructor <;> rfl), rfl⟩

theorem tick_keeps (s : State) : BoundaryKeeps s (tick s) := by
  unfold tick
  split
  · exact BoundaryKeeps.refl s
  · exact (reachSecond_keeps ..).1

theorem tick_clock {s : State} {n : Nat} (h : s.day.clock = some n) :
    (tick s).day.clock = some ((n + 1) % 86400) := by
  simp only [tick, h]
  exact (reachSecond_keeps ..).2

/-- The clock passes `n` seconds. -/
theorem passSeconds_clock (n : Nat) (orders : List (List Boundary)) {s : State} {t : Nat} (h : s.day.clock = some t)
    (ht : t < 86400) : (passSeconds n orders s).day.clock = some ((t + n) % 86400) := by
  induction n generalizing orders s t with
  | zero => simp only [passSeconds, h, Nat.add_zero, Nat.mod_eq_of_lt ht]
  | succ n ih =>
    have h1 : (settle (orders.headD []) (tick s)).day.clock = some ((t + 1) % 86400) :=
      (settle_keeps ..).2.1.trans (tick_clock h)
    have h2 := ih orders.tail h1 (Nat.mod_lt _ (by decide))
    rw [passSeconds, h2]
    congr 1
    omega

/-- After any seconds passed nothing of the last second is left to take. -/
theorem passSeconds_due (n : Nat) (orders : List (List Boundary)) {s : State} (h : s.day.due = []) :
    (passSeconds n orders s).day.due = [] := by
  induction n generalizing orders s with
  | zero => exact h
  | succ n ih => exact ih orders.tail (settle_keeps ..).2.2

end Sys2Proof.Machine
end

