-- ==== Sys2Proof/Laws/Layout.lean ====
section
/-! SUPPORT. The bytes of the part's messages and read replies (Formats, Reads) as numbers in widths, most significant byte
first (R199, R203). -/

namespace Sys2Proof.Machine

@[simp] theorem laidOut_nil : laidOut [] = [] := rfl

theorem laidOut_cons (x : Nat × Nat) (xs : List (Nat × Nat)) : laidOut (x :: xs) = bigEndian x.1 x.2 ++ laidOut xs := rfl

theorem laidOut_append (xs ys : List (Nat × Nat)) : laidOut (xs ++ ys) = laidOut xs ++ laidOut ys :=
  List.flatMap_append

theorem laidOut_flatMap {α : Type} (f : α → List (Nat × Nat)) (as : List α) :
    laidOut (as.flatMap f) = as.flatMap fun a => laidOut (f a) := List.flatMap_assoc

theorem laidOut_map {α : Type} (f : α → Nat × Nat) (as : List α) :
    laidOut (as.map f) = as.flatMap fun a => bigEndian (f a).1 (f a).2 := List.flatMap_map ..

theorem bigEndian_one (n : Nat) : bigEndian 1 n = enc1 n := by
  show [BitVec.ofNat 8 (n / 256 ^ 0)] = enc1 n
  rw [Nat.pow_zero, Nat.div_one]
  rfl

theorem bigEndian_two (n : Nat) : bigEndian 2 n = enc2 n := by
  show [BitVec.ofNat 8 (n / 256 ^ 1), BitVec.ofNat 8 (n / 256 ^ 0)] = enc2 n
  rw [Nat.pow_zero, Nat.div_one, Nat.pow_one]
  rfl

theorem bigEndian_three (n : Nat) : bigEndian 3 n = enc3 n := by
  show [BitVec.ofNat 8 (n / 256 ^ 2), BitVec.ofNat 8 (n / 256 ^ 1), BitVec.ofNat 8 (n / 256 ^ 0)] = enc3 n
  rw [Nat.pow_zero, Nat.div_one, Nat.pow_one]
  rfl

theorem bigEndian_six (n : Nat) : bigEndian 6 n = enc3 (n / 16777216) ++ enc3 n := by
  show [BitVec.ofNat 8 (n / 256 ^ 5), BitVec.ofNat 8 (n / 256 ^ 4), BitVec.ofNat 8 (n / 256 ^ 3),
    BitVec.ofNat 8 (n / 256 ^ 2), BitVec.ofNat 8 (n / 256 ^ 1), BitVec.ofNat 8 (n / 256 ^ 0)] = _
  simp only [enc3, List.cons_append, List.nil_append, Nat.div_div_eq_div_mul, Nat.reduceMul, Nat.reducePow, Nat.div_one]

theorem laidOut_one (n : Nat) (xs : List (Nat × Nat)) : laidOut ((1, n) :: xs) = enc1 n ++ laidOut xs := by
  rw [laidOut_cons, bigEndian_one]

theorem laidOut_two (n : Nat) (xs : List (Nat × Nat)) : laidOut ((2, n) :: xs) = enc2 n ++ laidOut xs := by
  rw [laidOut_cons, bigEndian_two]

theorem laidOut_three (n : Nat) (xs : List (Nat × Nat)) : laidOut ((3, n) :: xs) = enc3 n ++ laidOut xs := by
  rw [laidOut_cons, bigEndian_three]

theorem laidOut_six (n : Nat) (xs : List (Nat × Nat)) :
    laidOut ((6, n) :: xs) = enc3 (n / 16777216) ++ enc3 n ++ laidOut xs := by
  rw [laidOut_cons, bigEndian_six]

theorem laidOut_yes (b : Bool) (xs : List (Nat × Nat)) : laidOut (yesOr b :: xs) = encBool b ++ laidOut xs :=
  laidOut_one ..

/-- A "none" in a width of bytes is all ones. -/
theorem laidOut_none1 (v : Option Nat) (xs : List (Nat × Nat)) : laidOut (noneOr 1 v :: xs) = encOpt1 v ++ laidOut xs := by
  cases v with
  | none => rfl
  | some n => exact laidOut_one n xs

theorem laidOut_none2 (v : Option Nat) (xs : List (Nat × Nat)) : laidOut (noneOr 2 v :: xs) = encOpt2 v ++ laidOut xs := by
  cases v with
  | none => rfl
  | some n => exact laidOut_two n xs

theorem laidOut_none3 (v : Option Nat) (xs : List (Nat × Nat)) : laidOut (noneOr 3 v :: xs) = encOpt3 v ++ laidOut xs := by
  cases v with
  | none => rfl
  | some n => exact laidOut_three n xs

theorem laidOut_posted (v : Posted) : laidOut (postedItems v) = postedBytes v := by
  cases v <;> simp only [postedItems, laidOut_one, laidOut_nil, List.append_nil] <;> rfl

theorem laidOut_attribute (a : AttributeRecord) (threshold : Nat) :
    laidOut (attributeItems a threshold) = attributeBytes a threshold := by
  simp only [attributeItems, laidOut_none1, laidOut_one, laidOut_yes, laidOut_two, laidOut_nil, List.append_nil,
    attributeBytes, List.append_assoc]

end Sys2Proof.Machine
end

