-- ==== Sys2Proof/Tests/Slice0.lean ====
section
/-! SUPPORT. The model's own tests: the checks of WellFormed refuse ill-formed commands, frames written out from chapter 13
are read as what they stand for, single steps give what a rule says, and the hypotheses of every statement of
Certificates/Slice0/Obligations.lean are met by concrete states, clause by clause at the ends of the ranges. -/

namespace Sys2Proof.Tests

-- One theorem after the other: the whole file at once would ask for more threads than the memory limit has room for.
set_option Elab.async false

open Sys2Proof Sys2Proof.Machine

/-! ## Small states -/

/-- The state that a command answers. -/
def after (o : Result) : State :=
  match o with
  | .next s => s
  | .fault f => nomatch f
  | .refused _ => State.reset

def ride0 : RideEntry := { enabled := true, label := 5, controllerAddress := 9, gapLimit := 60 }
def reader0 : Reader := { address := 11, ride := 0, role := .standbyEntry, claimMode := .own, used := true }
def board0 : BoardEntry := { address := 12, firstRide := 0, rideCount := 1, refreshPeriod := 30, alertMinutes := 0 }

/-- A day in OPEN at 10:00:00 with ride 0 enabled and UP, reader 0 claimed for it, and board 0 showing it. -/
def openDay : State := { State.reset with
  nodeAddress := 2
  day := { phase := .opened, clock := some 36000 }
  rideTable := put State.reset.rideTable 0 ride0
  rides := put State.reset.rides 0 { state := .up }
  readers := put State.reset.readers 0 reader0
  boardTable := put State.reset.boardTable 0 board0 }

def inPhase (p : Phase) (s : State) : State := { s with day := { s.day with phase := p } }
def atSecond (n : Nat) (s : State) : State := { s with day := { s.day with clock := some n } }
def withDue (b : Boundary) (s : State) : State := { s with day := { s.day with due := [b] } }
def withRide (x : RideRun) (s : State) : State := { s with rides := put s.rides 0 x }
def rideIn (st : RideState) (s : State) : State := withRide { state := st } s
def withReader (x : Reader) (s : State) : State := { s with readers := put s.readers 0 x }
def withBoard (x : Board) (s : State) : State := { s with boards := put s.boards 0 x }
def withField (x : PortState) (s : State) : State := { s with fieldPort := x }
def withTrunk (x : PortState) (s : State) : State := { s with trunkPort := x }
def withEngine (x : PassEngine) (s : State) : State := { s with engine := x }
def withWalker (x : Walker) (s : State) : State := { s with walker := x }
def withOut (x : Handoffs) (s : State) : State := { s with out := x }
def withManagement (x : Management) (s : State) : State := { s with management := x }
def withTally (y : Tally) (s : State) : State := { s with tallies := put s.tallies 0 y }
def withMonitor (m : Monitor) (s : State) : State := { s with monitors := put s.monitors 0 m }
def withWindows (ws : List Window) (s : State) : State :=
  { s with calendar := { s.calendar with windows := put s.calendar.windows 0 ws } }
def withFlex (hs : List Holder) (s : State) : State :=
  { s with calendar := { s.calendar with flex := put s.calendar.flex 0 hs } }
def withGuests (gs : List Guest) (s : State) : State := { s with guests := gs }
def withPark (p : ParkSettings) (s : State) : State := { s with day := { s.day with park := p } }

/-- A management command alone in the intake. -/
def entryFor (c : MgmtCommand) : MgmtEntry := ⟨7, 1, c⟩
def asked (c : MgmtCommand) (s : State) : State := { s with mgmtIntake := [entryFor c] }

/-- An acted frame alone in the field intake. -/
def fieldEntry (source : Addr) (b : FieldBody) : FieldEntry := ⟨source, some 36000, b⟩
def sorted (source : Addr) (b : FieldBody) (s : State) : State := { s with fieldIntake := [fieldEntry source b] }

def frame0 : PartFrame := ⟨7, .notice 0⟩
def request0 : Request := ⟨.field, 3, 4, .list 1⟩
def passRequest (label : Label) : Request := ⟨.field, 3, 4, .pass 1 2 1 [label] none none⟩
def onKiosk (q : Request) (s : State) : State := withEngine { s.engine with kiosk := [q] } s

/-- Window 0 of ride 0, 11:00 to 11:30, with its holders. -/
def window0 (st : WindowState) (holders : List Holder) : Window :=
  { start := 660, stop := 690, state := st, ended := false, capacity := 10, limit := 8,
    booked := (holders.map Holder.party).sum, held := (holders.map Holder.party).sum, holders := holders }
def pass0 : Pass := ⟨0, 2, .window 0, 0, .kiosk, 600⟩

/-- A day in which the guest 1 holds a pass for two in window 0 of ride 0. -/
def heldDay (st : WindowState) : State := withGuests [⟨1, [pass0]⟩] (withWindows [window0 st [⟨1, 2⟩]] openDay)

/-- A day in which the guest 1 holds a pass for two on the flex list of ride 0. -/
def flexDay : State := withGuests [⟨1, [{ pass0 with place := .flex }]⟩] (withFlex [⟨1, 2⟩] openDay)

/-! ## The checks of WellFormed -/

theorem test_wellFormed_window_end_in_range : wellFormed (.windowEnd 0 95) = true := by decide
theorem test_wellFormed_refuses_early_redemption : wellFormed (.earlyRedemptionTime 0 96) = false := by decide
theorem test_wellFormed_refuses_window_end : wellFormed (.windowEnd 0 96) = false := by decide
theorem test_wellFormed_refuses_closing_time : wellFormed (.closingTime 47 96) = false := by decide
theorem test_wellFormed_refuses_work_item : wellFormed (.workItemHandoff 0 96) = false := by decide
theorem test_wellFormed_refuses_write_order : wellFormed (.tableWrite [3, 3]) = false := by decide
theorem test_wellFormed_refuses_state_order : wellFormed (.boardStateHandoff 0 [1, 2, 1]) = false := by decide
theorem test_wellFormed_refuses_posted_order : wellFormed (.postedValueHandoff 0 [0, 0]) = false := by decide
theorem test_wellFormed_refuses_trim_length : wellFormed (.clockTrim (List.replicate 60 [])) = false := by decide
theorem test_wellFormed_takes_trim_length : wellFormed (.clockTrim (List.replicate 59 [])) = true := by decide
theorem test_wellFormed_refuses_trim_repeat :
    wellFormed (.clockTrim [[.postingTick, .postingTick]]) = false := by decide
theorem test_wellFormed_refuses_trim_window : wellFormed (.clockTrim [[.closing 0 96]]) = false := by decide

/-! ## Frames written out from R196 to R201 -/

/-- A frame from the Ethernet type on, behind two Ethernet addresses and padded as R197 says. -/
def received (bytes : List Byte) : Frame := padded (List.replicate 12 0x55 ++ bytes)

/-- A TAP of credential 0x010203040506, head count 2, tag 0xABCD, from the reader 0x000B to the broadcast address. -/
def tapFrame : Frame := received
  [0x88, 0xB6, 0x01, 0x01, 0x00, 0x0A, 0xFF, 0xFF, 0x00, 0x0B,
   0x01, 0x02, 0x03, 0x04, 0x05, 0x06, 0x02, 0x00, 0xAB, 0xCD]

/-- A TAP from the reader 0x000B to the address 0x0003, a CLOCK_TRIM of -59 to the part at 0x0002, a PASS_REQUEST for two
rides and a VERDICT. -/
def tapToSystem : Frame := received
  [0x88, 0xB6, 0x01, 0x01, 0x00, 0x0A, 0x00, 0x03, 0x00, 0x0B,
   0x01, 0x02, 0x03, 0x04, 0x05, 0x06, 0x02, 0x00, 0xAB, 0xCD]
def trimFrame : Frame := received
  [0x88, 0xB6, 0x01, 0x30, 0x00, 0x05, 0x00, 0x02, 0x00, 0x07, 0x08, 0x00, 0x12, 0x34, 0xC5]
def requestFrame : Frame := received
  [0x88, 0xB6, 0x01, 0x10, 0x00, 0x14, 0x00, 0x02, 0x00, 0x03,
   0x00, 0x00, 0x00, 0x00, 0x00, 0x01, 0x04, 0x02, 0x02, 0x00, 0x00, 0x00, 0x04, 0xB0, 0x00, 0x09, 0x00, 0x05, 0x00, 0x06]
def dispatchFrame : Frame := received [0x88, 0xB6, 0x01, 0x03, 0x00, 0x02, 0x00, 0x03, 0x00, 0x09, 0x14, 0x00]
def statusFrame : Frame := received [0x88, 0xB6, 0x01, 0x04, 0x00, 0x02, 0x00, 0x03, 0x00, 0x09, 0x02, 0x00]
def listFrame : Frame := received
  [0x88, 0xB6, 0x01, 0x12, 0x00, 0x0A, 0x00, 0x02, 0x00, 0x03,
   0x00, 0x00, 0x00, 0x00, 0x00, 0x01, 0x00, 0x00, 0x00, 0x04]
def noticeFrame0 : Frame := received [0x88, 0xB6, 0x01, 0x21, 0x00, 0x04, 0x00, 0x02, 0x00, 0x03, 0x00, 0x00, 0x00, 0x00]
def tapBody : List Byte := [0x01, 0x02, 0x03, 0x04, 0x05, 0x06, 0x02, 0x00, 0xAB, 0xCD]
def listBody : List Byte := [0x00, 0x00, 0x00, 0x00, 0x00, 0x01, 0x00, 0x00, 0x00, 0x04]

theorem test_tap_frame : examine tapFrame = .queueNet 0xFFFF 0x000B .tap tapBody ∧
    tapFields tapBody = (0x010203040506, 2, 0xABCD) := by decide +kernel
theorem test_request_frame : ∃ body, examine requestFrame = .queueNet 2 3 .passRequest body ∧
    requestOf .trunk 3 .passRequest body = some ⟨.trunk, 3, 9, .pass 1 4 2 [5, 6] none (some 1200)⟩ :=
  ⟨_, rfl, by decide +kernel⟩
theorem test_trim_frame : ∃ body, examine trimFrame = .queueNet 2 7 .mgmtCommand body ∧
    entryOf 7 body = some ⟨7, 0x1234, .clockTrim (-59)⟩ := ⟨_, rfl, by decide +kernel⟩
theorem test_tagged_frame_is_foreign :
    examine (received [0x81, 0x00, 0x00, 0x01, 0x88, 0xB6, 0x01, 0x01]) = .foreign := by decide +kernel
theorem test_version_malformed :
    examine (received [0x88, 0xB6, 0x02, 0x03, 0x00, 0x02, 0x00, 0x03, 0x00, 0x09, 0x14, 0x00]) = .malformed := by
  decide +kernel
theorem test_length_malformed :
    examine (received [0x88, 0xB6, 0x01, 0x03, 0x00, 0x03, 0x00, 0x03, 0x00, 0x09, 0x14, 0x00]) = .malformed := by
  decide +kernel
theorem test_command_code_malformed :
    examine (received [0x88, 0xB6, 0x01, 0x30, 0x00, 0x04, 0x00, 0x02, 0x00, 0x07, 0x12, 0x00, 0x00, 0x00]) =
      .malformed := by decide +kernel

/-! ## What the hypotheses of the statements are met by: the machine, the pins, the ports -/

theorem test_witness_StepRunsFrontCommand :
    { State.reset with pending := [.clockAdvance, .dayOpen] }.pending = .clockAdvance :: [.dayOpen] ∧
      State.reset.pending = [] := ⟨rfl, rfl⟩

theorem test_witness_PinsAct : { openDay with resetLow := true }.resetLow = true ∧
    (∀ a, Instr.clockAdvance ≠ .powerOn a) ∧ (∀ a, Instr.clockAdvance ≠ .lineReset a) ∧
    (∀ p up, Instr.clockAdvance ≠ .linkStateChange p up) ∧ Instr.clockAdvance ≠ .resetNAsserted := by
  refine ⟨rfl, ?_, ?_, ?_, ?_⟩ <;> intros <;> exact Instr.noConfusion

theorem test_reset_low_ends_the_day :
    let t := after (exec .resetNAsserted (withOut { posted := [(1, .off)] } openDay))
    t.resetLow = true ∧ t.day.phase = .night ∧ t.day.clock = none ∧ t.nodeAddress = 2 ∧
      t.out.posted = [(1, .off), (0, .closed)] := by decide +kernel

def resetDue : State := withManagement { softReset := .due } (inPhase .checking openDay)

theorem test_witness_SoftReset :
    (openDay.resetLow = false ∧ openDay.management.softReset ≠ .due) ∧
    (resetDue.resetLow = false ∧ resetDue.management.softReset = .due) ∧
    mgmtHead (asked .softReset openDay) (entryFor .softReset) [] ∧ (entryFor .softReset).command = .softReset ∧
    (withManagement { softReset := .replySending } openDay).management.softReset ≠ .none := by
  unfold mgmtHead; decide +kernel

def goodFrame (n : Nat) : RxFrame := ⟨List.replicate n 0, true, true⟩
def buffered (n : Nat) : State := withField { receiveBuffer := List.replicate n [] } openDay
def onAir : PortState := { linkUp := true, relayQueue := [[1]], partQueue := [frame0] }

theorem test_witness_Reception :
    ((goodFrame 60).goodCheck = true ∧ (goodFrame 60).whole = true ∧ 60 ≤ (goodFrame 60).bytes.length) ∧
    (portOf (buffered 15) .field).receiveBuffer.length < 16 ∧ 16 ≤ (portOf (buffered 16) .field).receiveBuffer.length ∧
    (goodFrame 59).bytes.length < 60 ∧ { goodFrame 60 with goodCheck := false }.goodCheck = false ∧
    { goodFrame 60 with whole := false }.whole = false := by decide +kernel

theorem test_witness_EgressArbiter :
    { onAir with linkUp := false }.linkUp = false ∧ { onAir with transmitting := some [] }.transmitting.isSome = true ∧
    ({ onAir with relayQueue := [], partQueue := [] } : PortState).relayQueue = [] ∧
    (onAir.linkUp = true ∧ onAir.transmitting = none ∧ onAir.relayQueue = [1] :: [] ∧ onAir.nextPreference = .relay) ∧
    ({ onAir with partQueue := [] } : PortState).partQueue = [] ∧
    ({ onAir with nextPreference := .part }.partQueue = frame0 :: [] ∧
      { onAir with nextPreference := .part }.nextPreference = .part) ∧
    ({ onAir with relayQueue := [] } : PortState).relayQueue = [] := by decide +kernel

def receiving (p : Port) (f : Frame) (s : State) : State := setPort s p { portOf s p with receiveBuffer := [f] }
def relayLength (n : Nat) : State := receiving .field noticeFrame0 (withTrunk { relayQueue := List.replicate n [] } openDay)
def badFrame : Frame := received [0x88, 0xB6, 0x02]
def heldAtClassifier : State := withField { heldRequest := some request0, receiveBuffer := [tapFrame] } openDay

theorem test_witness_ClassifierRelaysAndDrops :
    (portOf heldAtClassifier .field).heldRequest.isSome = true ∧
    (classifierHead (receiving .field badFrame openDay) .field badFrame [] ∧ examine badFrame = .malformed) ∧
    (classifierHead (receiving .field (received []) openDay) .field (received []) [] ∧ examine (received []) = .foreign) ∧
    (classifierHead (receiving .field tapFrame openDay) .field tapFrame [] ∧
      examine tapFrame = .queueNet 0xFFFF 11 .tap tapBody) ∧
    (classifierHead (receiving .trunk tapToSystem openDay) .trunk tapToSystem [] ∧ sortable tapToSystem 3 11 .tap tapBody ∧
      (3 : Addr) ≠ openDay.nodeAddress ∧ State.reset.nodeAddress = 0) ∧
    (portOf (relayLength 127) (otherPort .field)).relayQueue.length < 128 ∧
    128 ≤ (portOf (relayLength 128) (otherPort .field)).relayQueue.length := by
  unfold classifierHead sortable; decide +kernel

theorem test_trunk_frame_to_another_address_is_relayed :
    (after (exec (.classifyFrame .trunk) (receiving .trunk tapToSystem openDay))).fieldPort.relayQueue = [tapToSystem] := by
  decide +kernel

theorem test_witness_FieldSorting_tap :
    classifierHead (receiving .field tapToSystem openDay) .field tapToSystem [] ∧
    sortable tapToSystem 3 11 .tap tapBody ∧ ¬(openDay.nodeAddress ≠ 0 ∧ (3 : Addr) = openDay.nodeAddress) ∧
    readerByAddress openDay 11 = some 0 := by
  unfold classifierHead sortable; decide +kernel

theorem test_witness_FieldSorting_no_reader : readerByAddress State.reset 11 = none := by
  simp [readerByAddress, State.reset]

theorem test_witness_FieldSorting_controller :
    sortable dispatchFrame 3 9 .dispatch [0x14, 0] ∧ sortable statusFrame 3 9 .rideStatus [2, 0] ∧
    rideByController openDay 9 = some 0 ∧ rideByController State.reset 9 = none := by
  unfold sortable; decide +kernel

theorem test_witness_FieldSorting_others :
    (∃ body, sortable trimFrame 2 7 .mgmtCommand body) ∧ ¬(State.reset.nodeAddress ≠ 0 ∧ (2 : Addr) = 0) ∧
    sortable noticeFrame0 2 3 .notice [0, 0, 0, 0] ∧ Kind.notice ∉ [Kind.tap, .dispatch, .rideStatus, .mgmtCommand] := by
  refine ⟨⟨_, rfl, ?_⟩, ?_⟩
  · decide
  · unfold sortable; decide +kernel

def fullKiosk (waiters : List Producer) (n : Nat) : State :=
  withEngine { kiosk := List.replicate 32 request0 }
    (withField { receiveBuffer := [listFrame], partQueue := List.replicate n frame0, waiters := waiters } openDay)

theorem test_witness_AddressedFrames_requests :
    classifierHead (receiving .field listFrame openDay) .field listFrame [] ∧ sortable listFrame 2 3 .passList listBody ∧
    openDay.nodeAddress ≠ 0 ∧ (2 : Addr) = openDay.nodeAddress ∧
    requestOf .field 3 .passList listBody = some ⟨.field, 3, 4, .list 1⟩ ∧
    (withField { fullReply := some frame0 } openDay).fieldPort.fullReply.isSome = true ∧
    (queueOfPort (withEngine { kiosk := List.replicate 31 request0 } openDay) .field).length < 32 ∧
    32 ≤ (queueOfPort (fullKiosk [] 127) .field).length ∧
    (queueOfPort (withEngine { remote := List.replicate 63 request0 } openDay) .trunk).length < 64 ∧
    (portOf (fullKiosk [] 127) .field).partQueue.length + (portOf (fullKiosk [] 127) .field).waiters.length < 128 ∧
    128 ≤ (portOf (fullKiosk [.admission] 127) .field).partQueue.length +
      (portOf (fullKiosk [.admission] 127) .field).waiters.length := by
  unfold classifierHead sortable; decide +kernel

theorem test_witness_AddressedFrames_others :
    (∃ body, sortable trimFrame 2 7 .mgmtCommand body ∧ entryOf 7 body = some ⟨7, 0x1234, .clockTrim (-59)⟩) ∧
    { openDay with mgmtIntake := List.replicate 15 (entryFor .dayOpen) }.mgmtIntake.length < 16 ∧
    16 ≤ { openDay with mgmtIntake := List.replicate 16 (entryFor .dayOpen) }.mgmtIntake.length ∧
    (sortable noticeFrame0 2 3 .notice [0, 0, 0, 0] ∧ requestOf .trunk 3 .notice [0, 0, 0, 0] = none) := by
  refine ⟨⟨_, ⟨rfl, ?_⟩, ?_⟩, ?_⟩
  · decide
  · decide +kernel
  · unfold sortable; decide +kernel

/-- The TRUNK queue with 127 frames and one producer waiting for the last place. -/
def lastPlace (who : Producer) (s : State) : State :=
  withTrunk { partQueue := List.replicate 127 frame0, waiters := [who] } s
def reply0 : PartFrame := ⟨7, .mgmtReply 1 .done 1 false []⟩

theorem test_witness_WaitingFramesAreWritten :
    (hasTurn (portOf (lastPlace .admission openDay) .trunk) .admission = true ∧
      hasTurn (portOf (lastPlace .passEngine openDay) .trunk) .passEngine = true ∧
      hasTurn (portOf (lastPlace .management openDay) .trunk) .management = true) ∧
    { openDay with admission := { outbox := [(.trunk, frame0)] } }.admission.outbox = (.trunk, frame0) :: [] ∧
    ((withEngine { outbox := [(.trunk, frame0)] } openDay).engine.outbox = (.trunk, frame0) :: [] ∧
      ∀ e ∈ (withEngine { outbox := [(.trunk, frame0)] } openDay).engine.heldList, e.expiring = false) ∧
    ((withManagement { outbox := [(.trunk, reply0)] } openDay).management.outbox = (.trunk, reply0) :: [] ∧
      isMgmtReply reply0 = true ∧ isMgmtReply frame0 = false ∧
      noticeDue (withManagement { outbox := [(.trunk, reply0)] } openDay) = false) := by decide +kernel

/-- The TRUNK queue with two producers waiting, `who` after another one, and each kind of waiting producer with a frame. -/
def secondInLine (frames : Nat) (other who : Producer) : State :=
  withTrunk { partQueue := List.replicate frames frame0, waiters := [other, who], fullReply := some frame0 }
    (withEngine { outbox := [(.trunk, frame0)] } (withManagement { outbox := [(.trunk, frame0)] }
      (withWalker { waiting := some frame0 } { openDay with admission := { outbox := [(.trunk, frame0)] } })))

/-- R168: with two places free, the producer that began waiting first has its turn and the other has none; with a full
queue neither has. -/
theorem test_first_waiter_has_its_turn :
    (∀ who ∈ [Producer.admission, .passEngine, .requestIntake, .walker],
      hasTurn (secondInLine 126 .management who).trunkPort .management = true ∧
      hasTurn (secondInLine 126 .management who).trunkPort who = false) ∧
    hasTurn (secondInLine 126 .walker .management).trunkPort .management = false ∧
    hasTurn (secondInLine 128 .management .walker).trunkPort .management = false := by decide +kernel

theorem test_witness_NoTurn :
    (secondInLine 126 .management .admission).admission.outbox = (.trunk, frame0) :: [] ∧
    (secondInLine 126 .management .passEngine).engine.outbox = (.trunk, frame0) :: [] ∧
    (secondInLine 126 .walker .management).management.outbox = (.trunk, frame0) :: [] ∧
    (portOf (secondInLine 126 .management .requestIntake) .trunk).fullReply = some frame0 ∧
    (secondInLine 126 .management .walker).walker.waiting = some frame0 := by decide +kernel

def intakeWaits (held : Option Request) (s : State) : State := withField
  { partQueue := List.replicate 127 frame0, waiters := [.requestIntake], fullReply := some frame0, heldRequest := held } s

theorem test_witness_IntakeResumes :
    (portOf (intakeWaits none openDay) .field).fullReply = some frame0 ∧
    hasTurn (portOf (intakeWaits none openDay) .field) .requestIntake = true ∧
    (portOf (intakeWaits none openDay) .field).heldRequest = none ∧
    (portOf (intakeWaits (some request0) openDay) .field).heldRequest = some request0 ∧
    (queueOfPort (withEngine { kiosk := List.replicate 31 request0 } openDay) .field).length < 32 ∧
    32 ≤ (queueOfPort (withEngine { kiosk := List.replicate 32 request0 } openDay) .field).length ∧
    (128 ≤ 127 + 1 + ([] : List Producer).length ∧ 126 + 1 + ([] : List Producer).length < 128) := by decide +kernel

def item0 : WorkItem := ⟨0, 0, .displace⟩
def walkerWaits (item : Option WorkItem) (list : List WorkItem) (abandoned : Bool) : State :=
  lastPlace .walker (withWalker { workList := list, item := item, waiting := some frame0, abandoned := abandoned } openDay)

theorem test_witness_WalkerResumes :
    (walkerWaits (some item0) [] false).walker.waiting = some frame0 ∧
    hasTurn (walkerWaits (some item0) [] false).trunkPort .walker = true ∧
    (walkerWaits (some item0) [] false).walker.item.isSome = true ∧
    (walkerWaits none [item0] false).walker.workList = item0 :: [] ∧
    (walkerWaits none [] true).walker.abandoned = true ∧ (walkerWaits none [] false).walker.abandoned = false := by
  decide +kernel

/-! ## The clock and its boundaries -/

theorem test_witness_ClockAdvance :
    State.reset.day.clock = none ∧ (atSecond 86399 openDay).day.clock = some 86399 ∧
    (atSecond 86399 openDay).day.due = [] ∧ (36000 + 1) % 86400 ≠ 0 ∧ (86399 + 1) % 86400 = 0 ∧
    inDay openDay.day.phase = true ∧ inDay State.reset.day.phase = false := by decide +kernel

theorem test_midnight_follows_23_59_59 :
    let t := after (exec .clockAdvance (atSecond 86399 (heldDay .future)))
    t.day.clock = some 0 ∧ t.day.phase = .night ∧ t.guests = [] ∧ t.day.due = [.historyRotation, .postingTick] := by
  decide +kernel

theorem test_witness_BoundariesOfASecond :
    let s := withBoard { pending := true, spacing := some 1, refresh := 29 }
      (withRide { state := .up, timer := ⟨true, 60, 59⟩ } (withWindows [window0 .future []] (atSecond 39599 openDay)))
    let t := after (exec .clockAdvance s)
    exec .clockAdvance s = .next t ∧ t.day.clock = some 39600 ∧ t.day.due =
      [.earlyRedemption 0 0, .historyRotation, .postingTick, .gapExpiry 0, .spacingEnd 0, .refresh 0] := by
  refine ⟨rfl, ?_⟩
  decide +kernel

theorem test_witness_PhaseBoundaries :
    (boundaryDue (withDue .openMinute (atSecond 32400 (inPhase .preopen openDay))) .openMinute ∧
      (withDue .openMinute (atSecond 32400 openDay)).day.clock = some (60 * openDay.day.park.openMinute) ∧
      openDay.day.phase ≠ .preopen) ∧
    (boundaryDue (withDue .lastCall (atSecond 79200 openDay)) .lastCall ∧
      (withDue .lastCall (atSecond 79200 openDay)).day.clock = some (60 * openDay.day.park.lastCallMinute)) ∧
    (openDay.day.clock ≠ some 86399 ∧ (atSecond 86399 openDay).day.clock = some 86399 ∧
      (atSecond 86399 openDay).day.due = []) ∧ inDay openDay.day.phase = true ∧
    inDay State.reset.day.phase = false := by
  unfold boundaryDue; decide +kernel

theorem test_witness_WindowOpensAndEnds :
    let opens (st : WindowState) (hs : List Holder) : State :=
      withDue (.earlyRedemption 0 0) (atSecond 39600 (withWindows [window0 st hs] openDay))
    let ends : State := withDue (.windowEnd 0 0) (atSecond 41400 (withWindows [window0 .redeemable []] openDay))
    (boundaryDue (opens .future []) (.earlyRedemption 0 0) ∧
      windowOf (opens .future []) 0 0 = some (window0 .future []) ∧ (rideProfile (opens .future []) 0).early ≤ 660 ∧
      (opens .future []).day.clock = some (60 * (660 - (rideProfile (opens .future []) 0).early))) ∧
    (window0 .lost []).state ≠ .future ∧ (window0 .future [⟨1, 2⟩]).holders ≠ [] ∧
    (rideState (opens .future []) 0 = .up ∧ rideState (rideIn .closed (opens .future [])) 0 = .closed) ∧
    (boundaryDue ends (.windowEnd 0 0) ∧ ends.day.clock = some (60 * 690) ∧
      (window0 .redeemable []).ended = false ∧ { window0 .past [] with ended := true }.ended = true) := by
  unfold boundaryDue; decide +kernel

theorem test_witness_ClosingTime :
    let closes (st : WindowState) (hs : List Holder) : State :=
      withDue (.closing 0 0) (atSecond 41400 (withWindows [window0 st hs] openDay))
    boundaryDue (closes .redeemable [⟨1, 2⟩]) (.closing 0 0) ∧
    windowOf (closes .redeemable [⟨1, 2⟩]) 0 0 = some (window0 .redeemable [⟨1, 2⟩]) ∧
    (closes .redeemable []).day.clock = some (60 * (690 + (rideProfile (closes .redeemable []) 0).late)) ∧
    (window0 .lost []).state ≠ .redeemable ∧ (window0 .redeemable []).holders = [] := by
  unfold boundaryDue; decide +kernel

theorem test_witness_PostingTick :
    boundaryDue (withDue .postingTick (atSecond 36030 openDay)) .postingTick ∧
    (withDue .postingTick (atSecond 36030 openDay)).day.clock = some 36030 ∧ inDay openDay.day.phase = true ∧
    inDay State.reset.day.phase = false ∧ (look openDay.rides 0).state = .up ∧ (look openDay.rides 1).state = .off ∧
    (look (rideIn .suspect openDay).rides 0).state = .suspect ∧ (look (rideIn .down openDay).rides 0).state = .down ∧
    (look (rideIn .closed openDay).rides 0).state = .closed := by
  unfold boundaryDue; decide +kernel

theorem test_witness_PostedMinutes :
    (curveMinutes .exact 240 = some 240 ∧ curveMinutes .exact 241 = some 241) ∧ curveMinutes .fives 236 = some 240 ∧
    curveMinutes .padded 100 = some 110 ∧ curveMinutes .bands 240 = some 240 ∧ curveMinutes .bands 241 = none := by
  decide

/-- A tally of one mark of `q` guests, `n` boardings in the newest bucket, and an observation of 20 minutes at 36000. -/
def waitingLine (q n : Nat) : Tally :=
  { marks := [⟨35000, q⟩], buckets := n :: List.replicate 14 0, lastObserved := some ⟨20, 36000⟩ }

theorem test_witness_PostedMinutes_estimate :
    ([(waitingLine 7 10)].map fun y => (y.marks.map Mark.count).sum * 60) = [420] ∧
    (estimateOf 36899 {} 0 (waitingLine 7 10) = 20 ∧ estimateOf 36900 {} 0 (waitingLine 7 10) = 11) ∧
    (36899 - 36000 < 900 ∧ 900 ≤ 36900 - 36000) ∧
    estimateOf 36900 { hourlyCapacity := 100, passShare := 40 } 10 (waitingLine 7 0) = 6 ∧
    estimateOf 36900 {} 0 (waitingLine 7 0) = 999 ∧ estimateOf 36900 {} 0 (waitingLine 0 0) = 0 := by decide +kernel

def heldEntry (expiring : Bool) : HeldEntry := ⟨passRequest 5, 0, 5, false, expiring⟩

theorem test_witness_TimersExpire :
    (boundaryDue (withDue .historyRotation (atSecond 36060 openDay)) .historyRotation ∧
      boundaryDue (withDue (.gapExpiry 0) openDay) (.gapExpiry 0)) ∧
    (let x := look (withRide { state := .up, timer := ⟨true, 60, 60⟩ } openDay).rides 0
     x.timer.running = true ∧ x.timer.limit ≤ x.timer.elapsed) ∧
    (look (withRide { state := .up, timer := ⟨true, 60, 59⟩ } openDay).rides 0).timer.elapsed < 60 ∧
    openDay.engine.outbox = [] ∧
    (withEngine { outbox := [(.field, frame0)] } openDay).engine.outbox ≠ [] ∧
    (withEngine { heldList := [heldEntry false, heldEntry true] } openDay).engine.heldList =
      [heldEntry false] ++ heldEntry true :: [] ∧
    (127 + ([] : List Producer).length < 128 ∧ 128 ≤ 127 + [Producer.admission].length) := by
  unfold boundaryDue; decide +kernel

theorem test_witness_BoardFramesAtTheirTimes :
    let waiting := withDue (.spacingEnd 0) (withBoard { pending := true, spacing := some 2 } openDay)
    let old := withDue (.refresh 0) (withBoard { refresh := 30 } openDay)
    let fills (n : Nat) := (withField { partQueue := List.replicate n frame0 } openDay).fieldPort.partQueue.length
    boundaryDue waiting (.spacingEnd 0) ∧ (look waiting.boards 0).pending = true ∧
    (look waiting.boards 0).spacing = some 2 ∧ (look openDay.boards 0).pending = false ∧
    (look (withBoard { pending := true, spacing := some 1 } waiting).boards 0).spacing = some 1 ∧
    boundaryDue old (.refresh 0) ∧ (look old.boardTable 0).address ≠ 0 ∧ (look old.boards 0).refresh ≠ 0 ∧
    (look openDay.boards 0).refresh = 0 ∧ fills 95 < 96 ∧ 96 ≤ fills 96 := by
  unfold boundaryDue; decide +kernel

/-! ## The management station -/

def trunkHolds (n : Nat) (waiters : List Producer) : State :=
  withTrunk { partQueue := List.replicate n frame0, waiters := waiters } openDay
def fieldHolds (n : Nat) : State := withField { partQueue := List.replicate n frame0 } openDay

theorem test_witness_MessagesWrittenOrWait :
    openDay.management.outbox = [] ∧ openDay.admission.outbox = [] ∧
    (trunkHolds 127 []).trunkPort.partQueue.length + (trunkHolds 127 []).trunkPort.waiters.length < 128 ∧
    128 ≤ (trunkHolds 127 [.walker]).trunkPort.partQueue.length + (trunkHolds 127 [.walker]).trunkPort.waiters.length ∧
    (fieldHolds 127).fieldPort.partQueue.length + (fieldHolds 127).fieldPort.waiters.length < 128 ∧
    ¬((fieldHolds 128).fieldPort.partQueue.length + (fieldHolds 128).fieldPort.waiters.length < 128) ∧
    { openDay with admission := { outbox := [(.field, frame0)] } }.admission.outbox ≠ [] := by decide +kernel

theorem test_witness_ReadCommandsAnswered_head :
    ∀ c ∈ [MgmtCommand.statusRead 1 0, .statusRead 2 47, .statusRead 2 48, .statusRead 3 63, .statusRead 3 64,
        .statusRead 0 0, .statusRead 4 0, .tableRead 1 0 [1, 8], .tableRead 3 47 [], .tableRead 0 0 [], .tableRead 6 0 [],
        .tableRead 1 1 [], .tableRead 4 512 [], .tableRead 5 0 [0], .tableRead 5 0 [6], .tableRead 2 7 [1, 1],
        .countsRead 47 48, .countsRead 48 1, .countsRead 0 0, .countsRead 0 49, .calendarRead 0 0 96,
        .calendarRead 0 1 1, .calendarRead 48 0 1, .calendarRead 47 0 0, .calendarRead 47 0 97, .guestRead 0 1,
        .guestRead 3 1, .guestRead 1 1, .guestRead 1 2, .guestRead 1 0, .guestRead 2 0, .guestRead 2 1],
      mgmtHead (asked c (heldDay .future)) (entryFor c) [] := by
  unfold mgmtHead; decide +kernel

theorem test_witness_ReadCommandsAnswered_operands :
    (tableOf 1 = some .park ∧ entryAt .park 0 = some .park ∧ ∀ n ∈ [1, 8], 1 ≤ n ∧ n ≤ lastField .park) ∧
    entryAt .ride 47 = some (.ride 47) ∧ entryAt .reader 512 = none ∧ entryAt .park 1 = none ∧
    (entryAt .board 0 = some (.board 0) ∧ lastField .board < 6) ∧ ¬[1, 1].Nodup ∧
    (inDay (heldDay .future).day.phase = true ∧ rideState (heldDay .future) 0 ≠ .off ∧ rideState (heldDay .future) 1 = .off ∧
      0 < (look (heldDay .future).calendar.windows 0).length ∧ (look (heldDay .future).calendar.windows 0).length ≤ 1) ∧
    (validCredential 1 = true ∧ guestOf 1 (heldDay .future).guests = some ⟨1, [pass0]⟩ ∧
      guestOf 2 (heldDay .future).guests = none ∧ validCredential 0 = false ∧ validCredential (BitVec.allOnes 48) = false) ∧
    ((heldDay .future).guests = [] ++ ⟨1, [pass0]⟩ :: [] ∧ (0 : Credential).toNat < (1 : Credential).toNat ∧
      ∀ x ∈ (heldDay .future).guests, x.credential.toNat ≤ (1 : Credential).toNat) := by decide +kernel

theorem test_status_of_the_part :
    (partStatus openDay).take 6 = [4, 10, 0, 0, 0, 2] ∧ (boardStatus (withBoard { pending := true } openDay) 0) = [3, 1, 0] := by
  decide +kernel

theorem test_witness_TableWriteJudged :
    mgmtHead (asked (.tableWrite 1 0 [(2, 1440)]) openDay) (entryFor (.tableWrite 1 0 [(2, 1440)])) [] ∧
    (tableOf 5 = some .board ∧ entryAt .board 64 = none ∧ entryAt .board 63 = some (.board 63)) ∧
    ¬[2, 2].Nodup ∧ (lastField .park < 9) ∧
    (inDay openDay.day.phase = true ∧ structural .park 1 = true ∧ structural .park 2 = false) ∧
    (accepts .park 2 1439 = true ∧ accepts .park 2 1440 = false) ∧
    (leavesUnsound openDay .park [(2, 1320)] = true ∧ leavesUnsound openDay .park [(2, 1319)] = false) ∧
    (([(2, 1320)] : List (Nat × Nat)).map Prod.fst).Nodup ∧ (∀ i ∈ [((3 : Nat), 13)], i.2 < 65536) ∧
    (leavesUnsound openDay (.board 0) [(3, 12)] = false ∧ leavesUnsound openDay (.board 0) [(1, 0), (3, 13)] = false) ∧
    leavesUnsound openDay (.board 0) [(3, 13)] = true ∧ (inPhase .checking openDay).day.phase = .checking := by
  unfold mgmtHead; decide +kernel

/-- The hypotheses of TableWriteTaken and TableWriteActs for a write of `items`. -/
def writable (s : State) (table index : Nat) (t : TableId) (x : Entry) (items : List (Nat × Nat)) : Prop :=
  mgmtHead (asked (.tableWrite table index items) s) (entryFor (.tableWrite table index items)) [] ∧
  tableOf table = some t ∧ entryAt t index = some x ∧ (∀ i ∈ items, 1 ≤ i.1 ∧ i.1 ≤ lastField t ∧ i.2 < 65536) ∧
  (items.map Prod.fst).Nodup ∧ s.day.phase ≠ .checking ∧
  (inDay s.day.phase = true → ∀ i ∈ items, structural t i.1 = false) ∧ (∀ i ∈ items, accepts t i.1 i.2 = true) ∧
  (inDay s.day.phase = true → leavesUnsound s x items = false)

def nightDay : State := inPhase .night openDay

theorem test_witness_TableWriteTaken :
    writable openDay 3 0 .ride (.ride 0) [(5, 4000), (16, 3)] ∧ writable openDay 1 0 .park .park [(2, 1319)] ∧
    writable nightDay 2 7 .profile (.profile 7) [(1, 60)] ∧ writable openDay 4 511 .reader (.reader 511) [(4, 3)] ∧
    writable openDay 5 0 .board (.board 0) [(1, 65535)] := by
  refine ⟨?_, ?_, ?_, ?_, ?_⟩ <;> unfold writable mgmtHead <;> decide +kernel

theorem test_witness_TableWriteActs_park :
    minuteNow openDay = 600 ∧ writable (inPhase .preopen openDay) 1 0 .park .park [(2, 600)] ∧
    writable (inPhase .preopen openDay) 1 0 .park .park [(2, 601)] ∧ writable openDay 1 0 .park .park [(3, 600)] ∧
    writable (inPhase .lastCall openDay) 1 0 .park .park [(3, 600)] ∧ writable openDay 1 0 .park .park [(6, 30)] := by
  refine ⟨?_, ?_, ?_, ?_, ?_, ?_⟩ <;> first | (unfold writable mgmtHead; decide +kernel) | decide +kernel

theorem test_witness_TableWriteActs_ride :
    writable nightDay 3 0 .ride (.ride 0) [(2, 0), (5, 1)] ∧ writable nightDay 3 0 .ride (.ride 0) [(1, 6)] ∧
    (look nightDay.rideTable 0).inEffect = (look nightDay.rideTable 0).written ∧ 1 ∉ [2, 5] := by
  refine ⟨?_, ?_, ?_, ?_⟩ <;> first | (unfold writable mgmtHead; decide +kernel) | decide +kernel

/-- A live board that was last sent another label than that of the ride it shows. -/
def staleBoard : State :=
  { withBoard { mode := .live, lastSent := some .blank } nightDay with heldValues := put nightDay.heldValues 0 .closed }

theorem test_write_of_the_same_label_sends_a_frame :
    (after (exec (.tableWrite []) (asked (.tableWrite 3 0 [(1, 5)]) staleBoard))).fieldPort.partQueue =
      [⟨12, .boardFrame (.lines [⟨5, .closed, false⟩])⟩] := by decide +kernel

theorem test_witness_TableWriteActs_board :
    writable openDay 5 0 .board (.board 0) [(1, 0)] ∧ writable openDay 5 0 .board (.board 0) [(5, 240)] ∧
    writable openDay 5 1 .board (.board 1) [(5, 5)] ∧ writable openDay 5 0 .board (.board 0) [(1, 13)] ∧
    (look openDay.boards 0).spacing = none ∧ (look (withBoard { spacing := some 2 } openDay).boards 0).spacing = some 2 ∧
    (look (withBoard { spacing := some 1 } openDay).boards 0).spacing = some 1 ∧
    (look (withBoard { deferred := true } openDay).boards 0).deferred = true ∧
    (fieldHolds 95).fieldPort.partQueue.length < 96 ∧ 96 ≤ (fieldHolds 96).fieldPort.partQueue.length := by
  refine ⟨?_, ?_, ?_, ?_, ?_⟩ <;> first | (unfold writable mgmtHead; decide +kernel) | decide +kernel

theorem test_write_of_tuning_field_locked_in_the_day :
    (after (exec (.tableWrite []) (asked (.tableWrite 3 0 [(2, 0)]) openDay))).trunkPort.partQueue =
      [⟨7, .mgmtReply 3 .locked 1 false []⟩] := by decide +kernel

theorem test_witness_DayOpenAndPhaseSet :
    (∀ s ∈ [openDay, State.reset, atSecond 0 State.reset, inPhase .checking openDay, inPhase .preopen openDay,
        inPhase .lastCall openDay], mgmtHead (asked .dayOpen s) (entryFor .dayOpen) []) ∧
    (State.reset.day.phase = .night ∧ State.reset.day.clock = none ∧ (atSecond 0 State.reset).day.clock.isSome = true) ∧
    (0 ∉ [1, 2, 3, 4, 5] ∧ 6 ∉ [1, 2, 3, 4, 5]) ∧
    mgmtHead (asked (.phaseSet 5) openDay) (entryFor (.phaseSet 5)) [] := by
  unfold mgmtHead; decide +kernel

theorem test_witness_DayClose :
    mgmtHead (asked .dayClose openDay) (entryFor .dayClose) [] ∧
    mgmtHead (asked .dayClose nightDay) (entryFor .dayClose) [] ∧
    mgmtHead (asked .dayClose (inPhase .checking openDay)) (entryFor .dayClose) [] ∧ inDay openDay.day.phase = true ∧
    nightDay.day.phase = .night ∧ (inPhase .checking openDay).day.phase = .checking := by
  unfold mgmtHead; decide +kernel

theorem test_day_close_empties_the_calendar :
    (after (exec .dayClose (asked .dayClose (heldDay .future)))).guests = [] ∧
    look (after (exec .dayClose (asked .dayClose (heldDay .future)))).calendar.windows 0 = [] := by decide +kernel

theorem test_witness_ClockSetAndTrim :
    (∀ c ∈ [MgmtCommand.clockSet 23 59 59, .clockSet 24 0 0, .clockSet 0 60 0, .clockSet 0 0 60, .clockTrim 0, .clockTrim (-60),
        .clockTrim 60, .clockTrim (-59), .clockTrim 59, .clockTrim 1, .clockTrim (-1)],
      mgmtHead (asked c nightDay) (entryFor c) []) ∧
    nightDay.day.due = [] ∧ nightDay.day.clock = some 36000 ∧ State.reset.day.clock = none ∧
    (let t := after (exec .clockAdvance nightDay)
     nightDay.resetLow = false ∧ nightDay.day.clock.isSome = true ∧ exec .clockAdvance nightDay = .next t) := by
  unfold mgmtHead
  refine ⟨by decide +kernel, by decide +kernel, by decide +kernel, by decide +kernel, by decide +kernel, by decide +kernel, rfl⟩

/-- A second at which the open minute and the expiry of a held request are to be taken. -/
def unsettled : State :=
  { withEngine { heldList := [heldEntry true] } (inPhase .preopen openDay) with
    day := { (inPhase .preopen openDay).day with clock := some 32400, due := [.openMinute, .holdExpiry] } }

theorem test_witness_ClockSetAndTrim_settle :
    unsettled.resetLow = false ∧ .lastCall ∉ unsettled.day.due ∧ .openMinute ∈ unsettled.day.due ∧
    .holdExpiry ∈ unsettled.day.due ∧ unsettled.day.due = .openMinute :: [.holdExpiry] := by decide +kernel

theorem test_settle_takes_what_is_due :
    (settle [.holdExpiry] unsettled).day.phase = .opened ∧ (settle [] unsettled).engine.heldList = [] ∧
    (settle [] unsettled).fieldPort.partQueue = [⟨3, .passReply 4 .retry⟩] := by decide +kernel

theorem test_trim_back_across_midnight :
    (after (exec (.clockTrim []) (asked (.clockTrim (-59)) (atSecond 58 nightDay)))).day.clock = some 86399 := by
  decide +kernel

/-- A state in which RIDE_DOWN is set and enabled and the target is 20. -/
def noticing (hold : Bool) : State :=
  withManagement { flags := 1, hold := hold }
    { openDay with day := { openDay.day with enableSet := 1, park := { noticeTarget := 20 } } }

theorem test_witness_Notices :
    mgmtHead (asked (.noticeSet 4095 20) openDay) (entryFor (.noticeSet 4095 20)) [] ∧
    mgmtHead (asked (.noticeClear 4096) openDay) (entryFor (.noticeClear 4096)) [] ∧
    ((4096 : BitVec 16).toNat = 4096 ∧ (4095 : BitVec 16).toNat < 4096) ∧
    (Flag.badMessage ∈ (withOut { flags := [.badMessage] } openDay).out.flags ∧ Flag.badMessage ∉ openDay.out.flags) ∧
    ((noticing false).management.hold = false ∧ (noticing false).day.park.noticeTarget ≠ 0 ∧
      (noticing false).management.flags.getLsbD 0 = true ∧ (noticing false).day.enableSet.getLsbD 0 = true) ∧
    (noticing true).management.hold = true ∧ openDay.day.park.noticeTarget = 0 ∧ openDay.management.flags = 0 := by
  unfold mgmtHead; decide +kernel

/-- A night's tables that pass the opening check. -/
def soundTables : State := { inPhase .checking openDay with
  readers := State.reset.readers
  calendar := { openDay.calendar with profiles := put openDay.calendar.profiles 0 ⟨30, 660, 26, 10, 5, 5⟩ } }

theorem unused_readers_have_no_fault (s : State) (h : s.readers = filled 512 {}) :
    (indices 512).flatMap (readerFaults s) = [] := by
  rw [List.flatMap_eq_nil_iff]
  intro i _
  have : look s.readers i = {} := by rw [h, look_filled]
  simp [readerFaults, this]

/-- Readers 0 and 1 share an address and name a ride that is not enabled. -/
def doubledReaders : State := { openDay with
  readers := put (put openDay.readers 0 { reader0 with ride := 1 }) 1 { reader0 with ride := 1 } }

theorem test_reader_codes_in_order :
    readerFaults doubledReaders 1 = [⟨.readerDup, .reader, 1⟩, ⟨.readerBadRide, .reader, 1⟩] := by decide +kernel

theorem test_sound_tables_pass : checkFaults soundTables = [] := by
  unfold checkFaults
  rw [unused_readers_have_no_fault soundTables rfl]
  decide +kernel

theorem test_empty_tables_fail : checkFaults State.reset = ⟨.noRide, .ride, 0⟩ :: [] := by
  unfold checkFaults
  rw [unused_readers_have_no_fault State.reset rfl]
  decide +kernel

theorem test_witness_CheckComplete :
    (soundTables.day.phase = .checking ∧ checkFaults soundTables = []) ∧ openDay.day.phase ≠ .checking ∧
    checkFaults State.reset = ⟨.noRide, .ride, 0⟩ :: [] ∧
    ((look soundTables.rideTable 0).enabled = true ∧ (look soundTables.rideTable 1).enabled = false ∧ 25 < 26) :=
  ⟨⟨rfl, test_sound_tables_pass⟩, by decide, test_empty_tables_fail, by decide +kernel⟩

/-! ## Rides, taps, tallies and boards -/

theorem test_witness_RideReports :
    fieldHead (sorted 9 (.rideStatus 0) openDay) (fieldEntry 9 (.rideStatus 0)) [] ∧
    fieldHead (sorted 9 (.rideStatus 3) openDay) (fieldEntry 9 (.rideStatus 3)) [] ∧ 4 ∉ [1, 2, 3] ∧
    rideByController openDay 9 = some 0 ∧ rideByController openDay 8 = none ∧ (look openDay.rides 0).state = .up ∧
    (look (rideIn .off openDay).rides 0).state = .off ∧
    mgmtHead (asked (.rideOverride 47 1) openDay) (entryFor (.rideOverride 47 1)) [] ∧
    mgmtHead (asked (.rideOverride 48 1) openDay) (entryFor (.rideOverride 48 1)) [] := by
  unfold fieldHead mgmtHead; decide +kernel

theorem test_witness_DispatchAccounts :
    (∀ n ∈ [0, 255], fieldHead (sorted 9 (.dispatch n) openDay) (fieldEntry 9 (.dispatch n)) []) ∧
    (inDay nightDay.day.phase = false ∧ inDay openDay.day.phase = true) ∧
    (∀ st ∈ [RideState.off, .closed, .up, .suspect, .down], (look (rideIn st openDay).rides 0).state = st) := by
  unfold fieldHead; decide +kernel

def crediting : State := withOut { credits := [(1, 2), (0, 4)] } (sorted 9 (.dispatch 20) openDay)

theorem test_witness_CreditAddition :
    crediting.out.credits = [(1, 2)] ++ (0, 4) :: [] ∧ (∀ x ∈ [((1 : Ride), 2)], x.1 ≠ 0) ∧
    fieldHead crediting (fieldEntry 9 (.dispatch 20)) [] ∧ (look crediting.rides 0).credit = 0 ∧
    (look crediting.rides 0).state ≠ .off ∧ rideByController crediting 9 = some 0 := by
  unfold fieldHead; decide +kernel

theorem test_dispatch_takes_the_credit :
    (after (exec .dispatch (withRide { state := .up, credit := 4 } (sorted 9 (.dispatch 20) openDay)))).out.dispatches =
      [⟨0, 16, 36000⟩] := by decide +kernel

def tapOf (mode : ActedMode) (c : Credential) (headCount : Nat) : FieldBody := .tap 0 mode c headCount 0xABCD

theorem test_witness_TapsRefusedOrObserved :
    (∀ h ∈ [0, 1, 8, 9], fieldHead (sorted 11 (tapOf .own 1 h) openDay) (fieldEntry 11 (tapOf .own 1 h)) []) ∧
    fieldHead (sorted 11 (tapOf .observe 1 8) openDay) (fieldEntry 11 (tapOf .observe 1 8)) [] ∧
    ActedMode.ownCopy ≠ .observe ∧ (look (rideIn .off openDay).rides (look openDay.readers 0).ride).state = .off ∧
    (look openDay.readers 0).role = .standbyEntry ∧
    (look (withReader { reader0 with role := .passMerge } openDay).readers 0).role = .passMerge := by
  unfold fieldHead; decide +kernel

theorem test_witness_StandbyTapsJudged :
    fieldHead (sorted 11 (tapOf .own 1 8) openDay) (fieldEntry 11 (tapOf .own 1 8)) [] ∧
    (look openDay.readers 0).role = .standbyEntry ∧ inDay openDay.day.phase = true ∧
    ((1 : Credential) ≠ 0 ∧ (1 : Credential) ≠ BitVec.allOnes 48) ∧
    (∀ st ∈ [RideState.up, .suspect, .down, .closed], (look (rideIn st openDay).rides (look openDay.readers 0).ride).state = st) := by
  unfold fieldHead; decide +kernel

def mergeDay (s : State) : State := sorted 11 (tapOf .own 1 1) (withReader { reader0 with role := .passMerge } s)

theorem test_witness_MergeTapsJudged :
    (∀ st ∈ [WindowState.future, .redeemable, .past, .lost],
      fieldHead (mergeDay (heldDay st)) (fieldEntry 11 (tapOf .own 1 1)) [] ∧
      passOf 1 0 (mergeDay (heldDay st)).guests = some pass0 ∧
      windowOf (mergeDay (heldDay st)) 0 0 = some (window0 st [⟨1, 2⟩]) ∧ (window0 st [⟨1, 2⟩]).state = st) ∧
    holderIn 1 (window0 .lost [⟨1, 2⟩]).holders = some ⟨1, 2⟩ ∧
    (look (mergeDay openDay).readers 0).role = .passMerge ∧ passOf 1 0 (mergeDay openDay).guests = none ∧
    (passOf 1 0 (mergeDay flexDay).guests = some { pass0 with place := .flex } ∧
      holderIn 1 (look (mergeDay flexDay).calendar.flex 0) = some ⟨1, 2⟩) ∧
    (∀ st ∈ [RideState.up, .suspect, .down, .closed],
      (look (rideIn st (mergeDay flexDay)).rides (look (mergeDay flexDay).readers 0).ride).state = st) := by
  unfold fieldHead; decide +kernel

/-- The minutes to the early-redemption time at 10:00, 10:59, 11:00 and 11:01. -/
theorem test_witness_MergeTapsJudged_minutes :
    let s (minute : Nat) : State := mergeDay (atSecond (60 * minute) (heldDay .future))
    (∀ n ∈ [600, 659, 660, 661], fieldHead (s n) (fieldEntry 11 (tapOf .own 1 1)) [] ∧
      (rideProfile (s n) 0).early = 0 ∧ minuteNow (s n) = n) ∧
    (660 = 0 + 600 + 60 ∧ 660 = 0 + 659 + 1 ∧ 660 = 0 + 660 ∧ 660 < 0 + 661) := by
  unfold fieldHead; decide +kernel

theorem test_merge_tap_redeems :
    (after (exec .tap (mergeDay (heldDay .redeemable)))).guests = [] ∧
    (after (exec .tap (mergeDay (heldDay .redeemable)))).fieldPort.partQueue =
      [⟨11, .verdict 5 .admitPass (some 2) none 0xABCD⟩] := by decide +kernel

def standing (h : Nat) (ms : List Mark) : State :=
  withTally { marks := ms } (withOut { standbys := [⟨0, h, 36000⟩] } openDay)
def manyMarks (last : Nat) : List Mark := List.replicate 255 ⟨30000, 1⟩ ++ [⟨35990, last⟩]

theorem test_witness_TallyHandoffs_standby :
    (standing 8 []).out.standbys[0]? = some ⟨0, 8, 36000⟩ ∧ (look (standing 8 []).tallies 0).marks = [] ∧
    (36000 - 35971 < 30 ∧ 247 + 8 ≤ 255) ∧ ¬(36000 - 35970 < 30) ∧ ¬(248 + 8 ≤ 255) ∧
    (look (standing 8 (manyMarks 248)).tallies 0).marks = List.replicate 255 ⟨30000, 1⟩ ++ [⟨35990, 248⟩] ∧
    256 ≤ (look (standing 8 (manyMarks 248)).tallies 0).marks.length ∧ min 8 (255 - 248) < 8 ∧ 7 ≤ min 7 (255 - 248) ∧
    (look (standing 8 (manyMarks 248).tail).tallies 0).marks.length < 256 := by decide +kernel

def boarding (n : Nat) : State :=
  withTally { marks := [⟨35000, 3⟩, ⟨35500, 4⟩] } (withOut { dispatches := [⟨1, 5, 36000⟩, ⟨0, n, 36000⟩] } openDay)

theorem test_witness_TallyHandoffs_dispatch :
    (boarding 8).out.dispatches = [⟨1, 5, 36000⟩] ++ ⟨0, 8, 36000⟩ :: [] ∧
    (∀ x ∈ [(⟨1, 5, 36000⟩ : DispatchHandoff)], x.ride ≠ 0) ∧
    (look (boarding 8).tallies 0).marks = [⟨35000, 3⟩, ⟨35500, 4⟩] ++ [] ∧
    (look (boarding 6).tallies 0).marks = [⟨35000, 3⟩] ++ [⟨35500, 4⟩] ∧
    (∀ m ∈ (look (boarding 8).tallies 0).marks, 1 ≤ m.count) ∧
    ((([⟨35000, 3⟩, ⟨35500, 4⟩] : List Mark).map Mark.count).sum ≤ 7) ∧ (3 ≤ 3 ∧ 3 < 3 + 4) := by decide +kernel

theorem test_witness_PostedAndHeldValues :
    (withOut { tallyStates := [(1, .up), (0, .down)] } openDay).out.tallyStates = [(1, .up)] ++ (0, .down) :: [] ∧
    (withOut { posted := [(0, .wait 5)] } openDay).out.posted = [] ++ (0, .wait 5) :: [] ∧
    (withOut { boardStates := [1, 0] } openDay).out.boardStates = [1] ++ 0 :: [] ∧ (0 : Ride) ∉ [(1 : Ride)] ∧
    look openDay.heldValues 0 = .off ∧ look openDay.heldValues 0 ≠ .down ∧
    (look openDay.boardTable 0).firstRide + (look openDay.boardTable 0).rideCount ≤ (1 : Ride).val := by decide +kernel

def liveBoard (x : Board) : State := withBoard { x with mode := .live } openDay

theorem test_witness_Signboards_changes :
    ((look (liveBoard {}).boards 0).mode = .live ∧ (look (liveBoard {}).boardTable 0).address ≠ 0 ∧
      (look (liveBoard {}).boards 0).lastSent ≠ some (liveContent (liveBoard {}) 0) ∧
      (look (liveBoard {}).boards 0).spacing = none) ∧
    (look (liveBoard { spacing := some 2 }).boards 0).spacing = some 2 ∧
    (look (liveBoard { spacing := some 1 }).boards 0).spacing = some 1 ∧ (look openDay.boards 0).mode ≠ .live ∧
    (fieldHolds 95).fieldPort.partQueue.length < 96 ∧ 96 ≤ (fieldHolds 96).fieldPort.partQueue.length := by
  decide +kernel

theorem test_witness_Signboards_modes :
    (∀ c ∈ [MgmtCommand.boardMode 63 1, .boardMode 64 1, .boardMode 0 0, .boardMode 0 4, .boardMode 0 2, .boardMode 0 3],
      mgmtHead (asked c (liveBoard {})) (entryFor c) []) ∧
    ((look (liveBoard {}).boards 0).mode ≠ .hold ∧ (look openDay.boards 0).mode ≠ .live ∧
      (look openDay.boards 0).mode = .blank) ∧
    (look openDay.boardTable 1).address = 0 ∧ (look (withBoard { deferred := true } openDay).boards 0).deferred = true ∧
    (look (liveBoard {}).boards 0).lastSent ≠ some .blank ∧
    (look (liveBoard { lastSent := some .blank }).boards 0).lastSent = some .blank := by
  unfold mgmtHead; decide +kernel

theorem test_witness_Signboards_content :
    (look (liveBoard {}).boards 0).mode = .live ∧ (look openDay.boards 0).mode = .blank ∧
    (look (withBoard { mode := .hold, frozen := some .blank } openDay).boards 0).frozen = some .blank ∧
    (look (withBoard { mode := .hold } openDay).boards 0).frozen = none := by decide +kernel

/-- A board over all 48 rides: the first 12 that are not OFF, in index order, the waits of 30 minutes or more marked. -/
theorem test_live_content_of_a_wide_board :
    liveContent { openDay with
      boardTable := put openDay.boardTable 0 { board0 with rideCount := 48, alertMinutes := 30 }
      heldValues := put (put (filled 48 (.wait 30)) 1 .off) 2 (.wait 29) } 0 =
      .lines (⟨5, .wait 30, true⟩ :: ⟨0, .wait 29, false⟩ :: List.replicate 10 ⟨0, .wait 30, true⟩) := by decide +kernel

theorem test_board_shows_the_posted_value :
    (after (exec (.postedValueHandoff 0 []) (withOut { posted := [(0, .over)] } (liveBoard {})))).fieldPort.partQueue =
      [⟨12, .boardFrame (.lines [⟨5, .over, false⟩])⟩] := by decide +kernel

/-! ## The Calendar, the Condition Monitor and the Walker -/

def fields0 : CapacityFields := { hourlyCapacity := 4000, passShare := 90, reserveShare := 50 }

theorem test_witness_CalendarHandoffs :
    (withOut { calendarStates := [(1, .up), (0, .down)] } (heldDay .redeemable)).out.calendarStates =
      [(1, .up)] ++ (0, .down) :: [] ∧ (RideState.suspect ≠ .down ∧ RideState.suspect ≠ .closed) ∧
    (withOut { recomputations := [⟨0, 100, 25, 90, fields0⟩] } openDay).out.recomputations =
      [] ++ ⟨0, 100, 25, 90, fields0⟩ :: [] := by decide +kernel

theorem test_down_makes_redeemable_windows_lost :
    (after (exec (.calendarStateHandoff 0)
      (withOut { calendarStates := [(0, .down)] } (heldDay .redeemable)))).out.workItems = [[⟨0, 0, .displace⟩]] := by
  decide +kernel

/-- A history whose newest bucket is that of minute 600. -/
def history : Monitor := { newestMinute := 600 }
def recordAt (time : Nat) : DispatchRecord := ⟨0, time, 20, 4⟩

theorem test_witness_ConditionMonitor :
    (withOut { records := [recordAt 36000] } (withMonitor history openDay)).out.records = [] ++ recordAt 36000 :: [] ∧
    (look (withMonitor history openDay).monitors 0).buckets = ⟨0, 0⟩ :: List.replicate 15 ⟨0, 0⟩ ∧
    (36000 / 60 ≤ history.newestMinute ∧ history.newestMinute - 35100 / 60 < history.buckets.length ∧
      history.buckets.length ≤ history.newestMinute - 35040 / 60 ∧ history.newestMinute < 36060 / 60) ∧
    (withOut { evaluations := [⟨1, 0, 690⟩, ⟨0, 0, 690⟩] } openDay).out.evaluations = [⟨1, 0, 690⟩] ++ ⟨0, 0, 690⟩ :: [] := by
  decide +kernel

def handing (batch : List WorkItem) (w : Walker) : State := withWalker w (withOut { workItems := [batch] } (heldDay .lost))

theorem test_witness_WorkItemsAndReleases :
    (handing [item0] {}).out.workItems = [] ++ (item0 :: []) :: [] ∧
    (handing [item0, ⟨0, 1, .displace⟩] {}).out.workItems = [] ++ (item0 :: [⟨0, 1, .displace⟩]) :: [] ∧
    (∃ j ∈ item0 :: [⟨0, 1, .displace⟩], j.ride = 0 ∧ j.window = 1) ∧
    ((handing [item0] {}).walker.waiting = none ∧ (handing [item0] {}).walker.item = none ∧
      (handing [item0] {}).walker.workList = []) ∧
    (handing [item0] { item := some ⟨1, 0, .expire⟩ }).walker.item.isSome = true ∧
    (withOut { displacementEnds := [1, 0] } openDay).out.displacementEnds = [1] ++ 0 :: [] ∧
    (withOut { lastCalls := 1 } openDay).out.lastCalls = 0 + 1 ∧ openDay.engine.outbox = [] := by decide +kernel

theorem test_items_of_one_hand_off_join_together :
    let t := after (exec (.workItemHandoff 0 1) (handing [item0, ⟨0, 1, .displace⟩] {}))
    t.walker.item = some item0 ∧ t.walker.workList = [⟨0, 1, .displace⟩] ∧ look t.walker.displacing 0 = 2 ∧
      t.out.workItems = [] := by decide +kernel

/-- The Walker on an item of window 0, with a second window of room `room` (under C) after it. -/
def walking (kind : WorkKind) (holders : List Holder) (capacity : Nat) : State :=
  withWalker { item := some ⟨0, 0, kind⟩, displacing := put (filled 48 0) 0 1 }
    (withGuests [⟨1, [pass0]⟩] (withWindows
      [window0 (match kind with | .displace => .lost | .expire => .past) holders,
        { window0 .future [] with start := 690, stop := 720, capacity := capacity }] openDay))

theorem test_witness_WalkerSteps_claims :
    ((walking .displace [⟨1, 2⟩] 2).walker.item = some item0 ∧ (walking .displace [⟨1, 2⟩] 2).walker.waiting = none ∧
      windowOf (walking .displace [⟨1, 2⟩] 2) 0 0 = some (window0 .lost [⟨1, 2⟩]) ∧
      passOf 1 0 (walking .displace [⟨1, 2⟩] 2).guests = some pass0) ∧
    ((look (walking .displace [] 2).rideTable 0).displacePolicy = .shift ∧ pass0.moves < 2 ∧ ¬(2 < 2)) ∧
    ((windowOf (walking .displace [⟨1, 2⟩] 2) 0 1).map fun v => decide (v.state = .future ∧ v.booked + 2 ≤ v.capacity)) =
      some true ∧
    ((windowOf (walking .displace [⟨1, 2⟩] 1) 0 1).map fun v => decide (v.state = .future ∧ v.booked + 2 ≤ v.capacity)) =
      some false ∧
    (windowOf (walking .expire [⟨1, 2⟩] 2) 0 0 = some (window0 .past [⟨1, 2⟩]) ∧ (window0 .past []).holders = []) := by
  decide +kernel

theorem test_displace_shifts_into_the_last_room :
    ((windowOf (after (exec .displaceStep (walking .displace [⟨1, 2⟩] 2))) 0 1).map Window.holders) = some [⟨1, 2⟩] ∧
    (after (exec .displaceStep (walking .displace [⟨1, 2⟩] 2))).out.displacementEnds = [0] := by decide +kernel

theorem test_displace_flexes_without_room :
    look (after (exec .displaceStep (walking .displace [⟨1, 2⟩] 1))).calendar.flex 0 = [⟨1, 2⟩] := by decide +kernel

theorem test_witness_WalkerSteps_finish :
    (0 < 1) ∧ (withWalker { item := some item0 } (trunkHolds 127 [])).walker.item = some item0 ∧
    ((some frame0).isSome = true ∧
      ¬((trunkHolds 128 []).trunkPort.partQueue.length + (trunkHolds 128 []).trunkPort.waiters.length < 128)) ∧
    (trunkHolds 127 []).trunkPort.partQueue.length + (trunkHolds 127 []).trunkPort.waiters.length < 128 ∧
    (withWalker { workList := [item0], item := some item0 } openDay).walker.workList = item0 :: [] := by decide +kernel

/-! ## Requests -/

theorem test_witness_ArbiterPicks :
    (onKiosk request0 openDay).engine.kiosk ≠ [] ∧ openDay.engine.remote = [] ∧ openDay.day.park.arbiterMode = .share ∧
    ((withEngine { lastQueue := some .kiosk, run := 3 } openDay).engine.run < openDay.day.park.runLimit ∧
      openDay.day.park.runLimit ≤ (withEngine { lastQueue := some .remote, run := 4 } openDay).engine.run) ∧
    (withPark { arbiterMode := .fixed } openDay).day.park.arbiterMode = .fixed ∧
    (withEngine { outbox := [(.field, frame0)] } openDay).engine.outbox ≠ [] ∧
    { heldEntry false with servable := true }.servable = true ∧ (heldEntry false).servable = false := by decide +kernel

/-- A FUTURE window of ride 0 with `booked` guests of the limit 8, at 10:00 with a LEAD of 60 minutes. -/
def offering (booked lead : Nat) : State :=
  { withWindows [{ window0 .future [] with booked := booked, held := booked }] openDay with
    calendar := { (withWindows [{ window0 .future [] with booked := booked, held := booked }] openDay).calendar with
      profiles := put openDay.calendar.profiles 0 ⟨30, 660, 1, lead, 0, 0⟩ } }

theorem test_witness_RequestsJudged_bad :
    (nightDay.day.phase ≠ .preopen ∧ nightDay.day.phase ≠ .opened) ∧ openDay.day.phase = .opened ∧
    (0 : Credential) = 0 ∧ (8 < 9 ∧ 3 < 4 ∧ ¬[(5 : Label), 5].Nodup ∧ 1439 < 1440) ∧
    (¬8 < 8 ∧ ¬3 < 3 ∧ [(5 : Label), 6, 7].Nodup ∧ ¬1439 < 1439) ∧ (660 < 661) := by decide +kernel

theorem test_witness_RequestsJudged_aside :
    ([(6 : Label), 5].find? fun l => (rideReason (offering 0 60) 1 l).isNone) = some 5 ∧
    rideByLabel (offering 0 60) 5 = some 0 ∧
    0 < look (withWalker { displacing := put (filled 48 0) 0 1 } (offering 0 60)).walker.displacing 0 ∧
    look (offering 0 60).walker.displacing 0 = 0 := by decide +kernel

theorem test_witness_RequestsJudged_refused :
    [(6 : Label), 5].map (searchReason (offering 7 60) 1 2 none none) =
      [(none, .unknownRide), (some 0, .soldOut)].map some ∧
    [(5 : Label)].map (searchReason (offering 0 61) 1 2 none none) = [(some 0, Reason.soldOut)].map some ∧
    [(5 : Label)].map (searchReason (heldDay .future) 1 2 none none) = [(some 0, Reason.duplicate)].map some := by
  decide +kernel

theorem test_witness_RequestsJudged_granted :
    [(6 : Label), 5] = [6] ++ 5 :: [] ∧
    [(6 : Label)].map (searchReason (offering 6 60) 1 2 (some 660) (some 660)) = [(none, .unknownRide)].map some ∧
    rideReason (offering 6 60) 1 5 = none ∧ rideByLabel (offering 6 60) 5 = some 0 ∧
    (∃ w, windowOf (offering 6 60) 0 0 = some w ∧ grantsTo (offering 6 60) 0 2 (some 660) (some 660) w) := by
  refine ⟨rfl, by decide +kernel, by decide +kernel, by decide +kernel, _, rfl, by decide +kernel, by decide +kernel, ?_, ?_,
    by decide +kernel⟩
  · intro e h
    cases h
    decide +kernel
  · intro l h
    cases h
    decide +kernel

theorem test_request_granted_at_the_limit :
    (after (exec .passRequest (onKiosk (passRequest 5) (offering 6 60)))).fieldPort.partQueue =
      [⟨3, .passReply 4 (.grant 5 2 660 690 [])⟩] := by decide +kernel

def servableEntry : HeldEntry := { heldEntry false with servable := true }

theorem test_witness_RequestsServed :
    requestHead (onKiosk (passRequest 5) openDay) .kiosk (passRequest 5) [] ∧
    requestHead (onKiosk request0 openDay) .kiosk request0 [] ∧
    ((passRequest 5).body = .pass 1 2 1 [5] none none ∧ request0.body = .list 1) ∧
    ((List.replicate 7 servableEntry).length < 8 ∧ 8 ≤ (List.replicate 8 servableEntry).length) ∧
    (guestOf 1 (heldDay .future).guests = some ⟨1, [pass0]⟩ ∧ guestOf 1 openDay.guests = none) ∧
    (withEngine { heldList := [heldEntry false, servableEntry] } openDay).engine.heldList =
      [heldEntry false] ++ servableEntry :: [] ∧ servableEntry.request.body = .pass 1 2 1 [5] none none := by
  unfold requestHead; decide +kernel

theorem test_witness_RequestsServed_listed :
    (∀ st ∈ [WindowState.future, .redeemable, .past, .lost],
      windowOf (heldDay st) pass0.ride 0 = some (window0 st [⟨1, 2⟩]) ∧ (window0 st [⟨1, 2⟩]).state = st) ∧
    pass0.place = .window 0 ∧ { pass0 with place := .flex }.place = .flex := by decide +kernel

theorem test_witness_RequestsServed_outcomes :
    (∃ x t, judgeRequest .kiosk 1 2 1 [5] none none (offering 0 60) = (.reply x, t)) ∧
    ∃ t, judgeRequest .kiosk 1 2 1 [5] none none
      (withWalker { displacing := put (filled 48 0) 0 1 } (offering 0 60)) = (.aside 0, t) := by
  refine ⟨⟨_, _, rfl⟩, ⟨_, rfl⟩⟩

def cancelRequest : Request := ⟨.field, 3, 4, .cancel 1 5⟩

theorem test_witness_PassesRemoved :
    requestHead (onKiosk cancelRequest (heldDay .future)) .kiosk cancelRequest [] ∧
    requestHead (onKiosk cancelRequest flexDay) .kiosk cancelRequest [] ∧ cancelRequest.body = .cancel 1 5 ∧
    (rideByLabel (heldDay .future) 5 = some 0 ∧ rideByLabel (heldDay .future) 6 = none ∧
      passOf 2 0 (heldDay .future).guests = none) ∧
    (passOf 1 0 (heldDay .future).guests = some pass0 ∧ holderIn 1 (window0 .future [⟨1, 2⟩]).holders = some ⟨1, 2⟩) ∧
    (passOf 1 0 flexDay.guests = some { pass0 with place := .flex } ∧
      holderIn 1 (look flexDay.calendar.flex 0) = some ⟨1, 2⟩) ∧
    (∀ n ∈ [0, 47, 48], mgmtHead (asked (.passRevoke n 1) (heldDay .future)) (entryFor (.passRevoke n 1)) []) := by
  unfold requestHead mgmtHead; decide +kernel

theorem test_cancel_frees_the_room :
    ((windowOf (after (exec .passCancel (onKiosk cancelRequest (heldDay .future)))) 0 0).map Window.booked) = some 0 ∧
    (after (exec .passCancel (onKiosk cancelRequest (heldDay .future)))).guests = [] := by decide +kernel

def twoGuests : List Guest := [⟨1, [pass0]⟩, ⟨3, [pass0, { pass0 with ride := 1 }]⟩]

theorem test_witness_LookupsAndGuestTable :
    twoGuests.Pairwise (fun a b => a.credential.toNat < b.credential.toNat) ∧
    (guestOf 1 twoGuests = some ⟨1, [pass0]⟩ ∧ ∀ p ∈ [pass0], p.ride = 0) ∧ guestOf 2 twoGuests = none ∧
    (∃ g, guestOf 3 twoGuests = some g ∧ ∃ p ∈ g.passes, p.ride ≠ 0) := by
  refine ⟨by decide +kernel, by decide +kernel, by decide +kernel, _, rfl, by decide +kernel⟩

theorem test_witness_FramesRoundTrip :
    (List.replicate 255 Reason.soldOut).length < 256 ∧ ([] : List ListedPass).length < 256 ∧
    (List.replicate 12 (⟨5, .over, true⟩ : BoardLine)).length < 256 ∧ MgmtResult.accepted ≠ .done ∧
    replyFieldsFit 0x01 (boardStatus openDay 0) ∧ replyFieldsFit 0x0D (countsBytes openDay 46 2) ∧ replyFieldsFit 0x11 [] := by
  refine ⟨by decide +kernel, by decide +kernel, by decide +kernel, by decide +kernel, ?_, ?_, ?_⟩ <;> unfold replyFieldsFit <;>
    decide +kernel

theorem test_witness_FramesRoundTrip_received :
    (word2 (received []) 12 ≠ 0x88B6 ∧ word2 tapFrame 12 = 0x88B6) ∧
    (num1 tapFrame 14 = 1 ∧ (num1 tapFrame 15, Kind.tap) ∈ kindCodes ∧ 22 + num2 tapFrame 16 ≤ tapFrame.length ∧
      fitsLayout .tap ((tapFrame.drop 22).take (num2 tapFrame 16))) ∧
    (word2 badFrame 12 = 0x88B6 ∧ num1 badFrame 14 ≠ 1) ∧
    (∀ c ∈ [0x00, 0x01, 0x08, 0x11, 0x12], num1 [c] 0 = c.toNat) ∧
    Kind.tap ∉ [Kind.passRequest, .passCancel, .passList] := by
  unfold fitsLayout; decide +kernel

/-! ## The invariants hold in states of a day in which something has happened -/

/-- The day of `heldDay`, with a command that grants a second pass waiting. -/
def busyDay : State := { onKiosk ⟨.field, 3, 4, .pass 3 2 1 [5] none none⟩ (heldDay .future) with pending := [.passRequest] }

theorem test_busyDay_steps : ∃ t, step busyDay = .next t ∧ t.guests.length = 2 := ⟨_, rfl, by decide +kernel⟩

theorem test_witness_AccountsKept : accountsHold busyDay := by
  unfold accountsHold Window.accountsHold; decide +kernel
theorem test_witness_NightIsEmptyKept : nightIsEmpty busyDay ∧ nightIsEmpty { State.reset with pending := [.dayOpen] } := by
  unfold nightIsEmpty; decide +kernel
theorem test_witness_NightIsEmptyKept_clock : clockSetByDay busyDay ∧ clockSetByDay State.reset := by
  unfold clockSetByDay; decide +kernel
theorem test_witness_QueuesBoundedKept : queuesBounded busyDay := by
  unfold queuesBounded portBounded; decide +kernel
theorem test_witness_GuestTableKept : guestTableWf busyDay := by
  unfold guestTableWf Guest.wf; decide +kernel
theorem test_witness_GuestTableKept_passes : passesBounded busyDay := by
  unfold passesBounded; decide +kernel
theorem test_witness_CountersKept : countersWf busyDay := by
  unfold countersWf marksWf; decide +kernel
theorem test_witness_WindowsMoveForward : busyDay.pending.head? ≠ some .checkComplete := by decide +kernel

theorem busyDay_windows (r : Ride) (k : Nat) (w : Window) (h : windowOf busyDay r k = some w) :
    r = 0 ∧ k = 0 ∧ w = window0 .future [⟨1, 2⟩] := by
  have all : ∀ r : Ride, look busyDay.calendar.windows r = if r = 0 then [window0 .future [⟨1, 2⟩]] else [] := by
    decide +kernel
  unfold windowOf at h
  rw [all] at h
  split at h
  · next e => cases k with
    | zero => exact ⟨e, rfl, (Option.some.inj h).symm⟩
    | succ n => cases h
  · cases h

theorem test_witness_WalkerSoundKept : walkerSound busyDay := by
  refine ⟨fun _ => ⟨by decide +kernel, fun i h => ?_, fun r k w h state => ?_, by decide +kernel⟩, fun h => ?_⟩
  · exact absurd (show i ∈ ([] : List WorkItem) from h) (List.not_mem_nil)
  · obtain ⟨_, _, rfl⟩ := busyDay_windows r k w h
    exact absurd state (by decide)
  · exact absurd h (by decide)

theorem test_witness_HoldingsAgreeKept : holdingsAgree busyDay := by
  have flex : ∀ r : Ride, look busyDay.calendar.flex r = [] := by decide +kernel
  refine ⟨fun c r p h => ?_, fun r k w h => ?_, fun r => ?_⟩
  · have hc : c = 1 ∧ r = 0 ∧ p = pass0 := by
      by_cases e : c = 1
      · by_cases e' : r = 0
        · subst e e'
          exact ⟨rfl, rfl, (Option.some.inj h).symm⟩
        · subst e
          have none : ∀ r : Ride, r ≠ 0 → passOf 1 r busyDay.guests = none := by decide +kernel
          rw [none r e'] at h
          cases h
      · have none : passOf c r busyDay.guests = none := by
          have : guestOf c busyDay.guests = none := by
            have e' : ((1 : Credential) == c) = false := beq_eq_false_iff_ne.2 (Ne.symm e)
            show List.find? (fun g : Guest => g.credential == c) [⟨1, [pass0]⟩] = none
            simp only [List.find?, e']
          simp only [passOf, this, Option.bind_none]
        rw [none] at h
        cases h
    obtain ⟨rfl, rfl, rfl⟩ := hc
    exact ⟨fun k hk => ⟨window0 .future [⟨1, 2⟩], by cases hk; decide +kernel, by decide +kernel⟩,
      fun hk => absurd hk (by decide)⟩
  · obtain ⟨rfl, rfl, rfl⟩ := busyDay_windows r k w h
    refine ⟨by decide +kernel, fun x hx => ⟨pass0, ?_⟩⟩
    have : x = ⟨1, 2⟩ := by simpa [window0] using hx
    subst this
    decide +kernel
  · rw [flex]
    exact ⟨List.nodup_nil, fun x hx => absurd hx (List.not_mem_nil)⟩

end Sys2Proof.Tests
end

section
/-! PROOFS. Chapter 2, the Ride State Unit: the delivery of a field message, the restart of a gap timer, the entry of a ride
into UP, and the accounts of a DISPATCH (O34). -/

namespace Sys2Proof

/-- Of two writes to one entry of a table the second stands. -/
@[simp] theorem put_put {n : Nat} {α : Type} (t : Table n α) (i : Fin n) (a b : α) :
    put (put t i a) i b = put t i b := by
  apply table_ext
  intro j
  by_cases h : i = j
  · subst h; simp
  · simp [look_put_other, h]

end Sys2Proof

namespace Sys2Proof.Machine

/-! ## The delivery of a field message -/

/-- R97: the head of the field intake is delivered and leaves the intake. -/
theorem deliver_of_fieldHead {s : State} {e : FieldEntry} {rest : List FieldEntry} (head : fieldHead s e rest) :
    deliver s = some (e, { s with fieldIntake := rest }) := by
  obtain ⟨-, idle, intake⟩ := head
  simp [deliver, admissionWaits, idle, intake]

/-- R31, R97: a DISPATCH at the head is delivered to the Ride State Unit. -/
theorem exec_dispatch_of_fieldHead {s : State} {e : FieldEntry} {rest : List FieldEntry} {n : Nat}
    (head : fieldHead s e rest) (body : e.body = .dispatch n) :
    exec .dispatch s = .next (takeDispatchMessage e n { s with fieldIntake := rest }) := by
  have ⟨high, _, _⟩ := head
  show execDispatch s = _
  rw [execDispatch, event_taken _ high, deliver_of_fieldHead head]
  simp only [body]

/-! ## The gap timer and the entry into UP -/

/-- R27: what a restart under a GAP_LIMIT of `g` makes of a gap timer. -/
def restarted (g : Nat) (t : GapTimer) : GapTimer := if g = 0 then { t with running := false } else ⟨true, g, 0⟩

/-- R27: a restart behind a write to the ride changes the timer of what was written. -/
theorem restartTimer_of_put {s : State} {t : Table 48 RideRun} {r : Ride} {x : RideRun} (h : s.rides = put t r x) :
    restartTimer s r =
      { s with rides := put t r { x with timer := restarted (look s.rideTable r).gapLimit x.timer } } := by
  simp [restartTimer, restarted, rideEntry, upd, h]

/-- R24, R25, R27: a ride enters UP with its timer restarted, and the state is handed on. -/
theorem enterState_up (r : Ride) (s : State) : enterState r .up s = rideEnters s r .up := by
  have restart := restartTimer_of_put
    (s := { s with rides := upd s.rides r fun x => { x with state := .up } }) (r := r) rfl
  simp only [enterState, restart, handState, rideEnters, restarted]
  by_cases h : (look s.rideTable r).gapLimit = 0 <;> simp [h]

/-! ## The accounts of a dispatch -/

/-- R31, R33: the accounts of a dispatch of `n` riders taken on the ride's credit, with `y` left as the rest of the ride's
record. -/
def accounted (r : Ride) (n time : Nat) (y : RideRun) (s : State) : State :=
  let credit := (look s.rides r).credit
  let part := min n credit
  { s with
    rides := put s.rides r { y with credit := credit - part }
    management := { s.management with
      counts := upd s.management.counts r fun k => { k with dispatchedRiders := countUp k.dispatchedRiders n } }
    out := { s.out with
      dispatches := s.out.dispatches ++ [⟨r, n - part, time⟩]
      records := s.out.records ++ [⟨r, time, n, part⟩] } }

/-- Of the ride's record the accounts change the credit alone. -/
theorem accountDispatch_eq (r : Ride) (n time : Nat) (s : State) :
    accountDispatch r n time s = accounted r n time (look s.rides r) s := rfl

/-- The state effect of a dispatch goes by the state that its accounts find. -/
theorem rideState_accountDispatch (r : Ride) (n time : Nat) (s : State) :
    rideState (accountDispatch r n time s) r = rideState s r := by
  simp [rideState, accountDispatch]

theorem restartTimer_accounted (r : Ride) (n time : Nat) (y : RideRun) (s : State) :
    restartTimer (accounted r n time y s) r =
      accounted r n time { y with timer := restarted (look s.rideTable r).gapLimit y.timer } s := by
  rw [restartTimer_of_put (s := accounted r n time y s) rfl]
  rfl

/-! ## Which dispatches are acted on -/

/-- R31: outside the day a DISPATCH changes nothing. -/
theorem takeDispatchMessage_outside {e : FieldEntry} {s : State} (n : Nat) (night : inDay s.day.phase = false) :
    takeDispatchMessage e n s = s := by simp [takeDispatchMessage, night]

/-- R20: a DISPATCH whose source controls no enabled ride changes nothing. -/
theorem takeDispatchMessage_noRide {e : FieldEntry} {s : State} (n : Nat) (noRide : rideByController s e.source = none) :
    takeDispatchMessage e n s = s := by simp [takeDispatchMessage, noRide]

section InTheDay

variable {e : FieldEntry} {s : State} {r : Ride} (n : Nat) (day : inDay s.day.phase = true)
  (ride : rideByController s e.source = some r)
include day ride

/-- R31: a DISPATCH for an OFF ride changes nothing. -/
theorem takeDispatchMessage_off (off : rideState s r = .off) : takeDispatchMessage e n s = s := by
  simp [takeDispatchMessage, day, ride, off]

/-- R20, R31: a DISPATCH for a ride that is not OFF is accounted, and then acts on the ride's state. -/
theorem takeDispatchMessage_acted (on : rideState s r ≠ .off) :
    takeDispatchMessage e n s = dispatchState r (accountDispatch r n (entryTime e s) s) := by
  simp [takeDispatchMessage, day, ride, on]

/-- R32: an UP ride's gap timer restarts. -/
theorem takeDispatchMessage_up (up : rideState s r = .up) :
    takeDispatchMessage e n s = accounted r n (entryTime e s)
      { look s.rides r with timer := restarted (look s.rideTable r).gapLimit (look s.rides r).timer } s := by
  rw [takeDispatchMessage_acted n day ride (by simp [up]), dispatchState, rideState_accountDispatch, up]
  exact restartTimer_accounted r n (entryTime e s) (look s.rides r) s

/-- R32: a DOWN or CLOSED ride stays as it is. -/
theorem takeDispatchMessage_still (still : rideState s r = .down ∨ rideState s r = .closed) :
    takeDispatchMessage e n s = accounted r n (entryTime e s) (look s.rides r) s := by
  have on : rideState s r ≠ .off := by rcases still with h | h <;> simp [h]
  rw [takeDispatchMessage_acted n day ride on, dispatchState, rideState_accountDispatch]
  rcases still with down | closed
  · rw [down, accountDispatch_eq]
  · rw [closed, accountDispatch_eq]

/-- R32: a SUSPECT ride enters UP. -/
theorem takeDispatchMessage_suspect (suspect : rideState s r = .suspect) :
    takeDispatchMessage e n s = rideEnters (accounted r n (entryTime e s) (look s.rides r) s) r .up := by
  rw [takeDispatchMessage_acted n day ride (by simp [suspect]), dispatchState, rideState_accountDispatch, suspect]
  exact enterState_up ..

end InTheDay

/-- Settles O34: the DISPATCH is delivered from the head of the intake, and the phase, the controller lookup and the ride's
state decide its effect. -/
theorem dispatchAccounts : Obligations.DispatchAccounts := by
  unfold Obligations.DispatchAccounts
  intro e rest n s head body s1
  have delivered : exec .dispatch s = .next (takeDispatchMessage e n s1) := exec_dispatch_of_fieldHead head body
  rw [delivered]
  refine ⟨?_, fun r day ride => ⟨?off, ?up, ?still, ?suspect⟩⟩
  · rintro (night | noRide)
    · exact congrArg _ (takeDispatchMessage_outside n night)
    · exact congrArg _ (takeDispatchMessage_noRide n noRide)
  case off => exact fun off => congrArg _ (takeDispatchMessage_off (s := s1) n day ride off)
  case up => exact fun up => congrArg _ (takeDispatchMessage_up (s := s1) n day ride up)
  case still => exact fun still => congrArg _ (takeDispatchMessage_still (s := s1) n day ride still)
  case suspect => exact fun suspect => congrArg _ (takeDispatchMessage_suspect (s := s1) n day ride suspect)

end Sys2Proof.Machine
end

section
/-! PROOFS. Chapter 3, the Return-Window Calendar: the taking of a due boundary, the work item of a window that has just
moved, and the closing time (O17). -/

namespace Sys2Proof.Machine

/-! ## The taking of a due boundary -/

/-- A due boundary is run on the state without it. -/
theorem event_takeDue_of_boundaryDue {b : Boundary} {s : State} (due : boundaryDue s b) :
    event (takeDue b) s = .next (runBoundary b (withoutDue s b)) := by
  obtain ⟨high, present⟩ := due
  rw [event_taken _ high, takeDue_due present]
  rfl

theorem clockAt_iff {s : State} {minute : Nat} : clockAt s minute = true ↔ s.day.clock = some (60 * minute) := by
  simp [clockAt]

/-! ## The work item of a window -/

/-- R48: a window without holders gives no item. -/
theorem handItems_itemFor_of_empty {w : Window} (r : Ride) (k : Nat) (kind : WorkKind) (s : State)
    (empty : w.holders = []) : handItems (itemFor r k kind w) s = s := by
  simp [itemFor, empty, handItems]

/-- R48: the one item of a window with holders is a hand-off of its own. -/
theorem handItems_itemFor_of_held {w : Window} (r : Ride) (k : Nat) (kind : WorkKind) (s : State)
    (held : w.holders ≠ []) : handItems (itemFor r k kind w) s =
      { s with out := { s.out with workItems := s.out.workItems ++ [[⟨r, k, kind⟩]] } } := by
  simp [itemFor, held, handItems]

/-! ## The closing time -/

/-- R46: a window that is not REDEEMABLE is unchanged at its closing time. -/
theorem closingTime_of_not_redeemable {r : Ride} {k : Nat} {w : Window} {s : State} (window : windowOf s r k = some w)
    (moved : w.state ≠ .redeemable) : closingTime r k s = s := by
  simp [closingTime, window, moved]

/-- R46, R48: a REDEEMABLE window becomes PAST at its closing time, and its item is handed to the Walker. -/
theorem closingTime_of_redeemable {r : Ride} {k : Nat} {w : Window} {s : State} (window : windowOf s r k = some w)
    (redeemable : w.state = .redeemable) (reached : s.day.clock = some (60 * (w.stop + (rideProfile s r).late))) :
    closingTime r k s = handItems (itemFor r k .expire w) (putWindow r k { w with state := .past } s) := by
  simp [closingTime, window, redeemable, clockAt_iff.2 reached]

/-- Settles O17: the due boundary is run on the state without it, and the window's state and its holders decide what it
does. (`closingTime` itself is the model's function.) -/
theorem exec_closingTime : Obligations.ClosingTime := by
  unfold Obligations.ClosingTime
  intro r k w s due window reached s1 past
  have taken : exec (.closingTime r k) s = .next (closingTime r k s1) := event_takeDue_of_boundaryDue due
  have closes (redeemable : w.state = .redeemable) : closingTime r k s1 = handItems (itemFor r k .expire w) past :=
    closingTime_of_redeemable (s := s1) window redeemable reached
  rw [taken]
  refine ⟨?still, ?empty, ?held⟩
  case still => exact fun moved => congrArg _ (closingTime_of_not_redeemable (s := s1) window moved)
  case empty =>
    intro redeemable empty
    rw [closes redeemable, handItems_itemFor_of_empty r k .expire past empty]
  case held =>
    intro redeemable held
    rw [closes redeemable, handItems_itemFor_of_held r k .expire past held]

end Sys2Proof.Machine
end

section
/-! PROOFS. Chapter 6, the Admission Unit: the delivery of a tap, its answer with a verdict, and the judging of a tap at the
standby entry (O37). -/

namespace Sys2Proof.Machine

/-! ## Delivery and answer -/

/-- R97, R98: a TAP at the head of the field intake is delivered to the Admission Unit. -/
theorem exec_tap_of_fieldHead {s : State} {e : FieldEntry} {rest : List FieldEntry} {i : ReaderIx} {mode : ActedMode}
    {c : Credential} {h : Nat} {tag : Tag} (head : fieldHead s e rest) (body : e.body = .tap i mode c h tag) :
    exec .tap s = .next (takeTap e i mode c h tag { s with fieldIntake := rest }) := by
  have ⟨high, _, _⟩ := head
  show execTap s = _
  rw [execTap, event_taken _ high, deliver_of_fieldHead head]
  simp only [body]

/-- R98, R104: a tap with a head count in range under OWN or OWN_COPY is judged, and the judgement is sent as its
verdict. -/
theorem takeTap_of_judgeTap {s t : State} {e : FieldEntry} {i : ReaderIx} {mode : ActedMode} {c : Credential} {h : Nat}
    {v : Verdict} (tag : Tag) (someone : 1 ≤ h) (atMost : h ≤ 8) (owned : mode ≠ .observe)
    (judged : judgeTap (look s.readers i) c h (entryTime e s) s = (v, t)) :
    takeTap e i mode c h tag s =
      sendVerdict mode (verdictFrame s e (look s.readers i).ride v.result v.party v.minutes tag) t := by
  have inRange : ¬ (h = 0 ∨ 8 < h) := by omega
  cases mode with
  | observe => exact absurd rfl owned
  | own => simp only [takeTap, if_neg inRange, judged]
  | ownCopy => simp only [takeTap, if_neg inRange, judged]

/-! ## Judging at the standby entry -/

theorem validCredential_iff {c : Credential} : validCredential c = true ↔ c ≠ 0 ∧ c ≠ BitVec.allOnes 48 := by
  simp [validCredential]

/-- R99, R100: past the refusals of R99 a STANDBY_ENTRY tap is judged by its ride's state. -/
theorem judgeTap_standbyEntry {rd : Reader} {c : Credential} {s : State} (h time : Nat)
    (entry : rd.role = .standbyEntry) (day : inDay s.day.phase = true) (valid : validCredential c = true)
    (on : rideState s rd.ride ≠ .off) : judgeTap rd c h time s = judgeStandby rd.ride h time s := by
  simp [judgeTap, entry, day, valid, on]

section RideStates

variable {r : Ride} {s : State} (h time : Nat)

/-- R100: an UP or SUSPECT ride admits the tap with its head count, counts it and hands it to the standby tally. -/
theorem judgeStandby_running (running : rideState s r = .up ∨ rideState s r = .suspect) :
    judgeStandby r h time s = (⟨.admitStandby, some h, none⟩,
      handStandby r h time (changeCounts r (countAdmitted .standbyEntry) s)) := by
  rcases running with up | suspect
  · simp only [judgeStandby, up]
  · simp only [judgeStandby, suspect]

/-- R100: a DOWN ride refuses the tap and counts it. -/
theorem judgeStandby_down (down : rideState s r = .down) :
    judgeStandby r h time s = (refusal .refuseRideDown, changeCounts r (countRefused .standbyEntry) s) := by
  simp only [judgeStandby, down]

/-- R100: a CLOSED ride refuses the tap and counts it. -/
theorem judgeStandby_closed (closed : rideState s r = .closed) :
    judgeStandby r h time s = (refusal .refuseRideClosed, changeCounts r (countRefused .standbyEntry) s) := by
  simp only [judgeStandby, closed]

end RideStates

/-- Settles O37: the tap is delivered from the head of the intake, passes R99, and the ride's state decides the judgement
that is sent as its verdict. -/
theorem standbyTapsJudged : Obligations.StandbyTapsJudged := by
  unfold Obligations.StandbyTapsJudged
  intro e rest i mode c h tag s head body entry someone atMost owned day notZero notOnes r verdict counted admitted refused
  let s1 : State := { s with fieldIntake := rest }
  have valid : validCredential c = true := validCredential_iff.2 ⟨notZero, notOnes⟩
  have answered {v : Verdict} {t : State} (on : (look s.rides r).state ≠ .off)
      (judged : judgeStandby r h (entryTime e s1) s1 = (v, t)) :
      exec .tap s = .next (sendVerdict mode (verdictFrame s1 e r v.result v.party v.minutes tag) t) := by
    rw [exec_tap_of_fieldHead head body]
    exact congrArg _ (takeTap_of_judgeTap tag someone atMost owned
      ((judgeTap_standbyEntry (s := s1) h (entryTime e s1) entry day valid on).trans judged))
  refine ⟨?running, ?down, ?closed⟩
  case running =>
    intro running
    have on : (look s.rides r).state ≠ .off := fun off => by simp [off] at running
    exact answered on (judgeStandby_running h _ running)
  case down => exact fun down => answered (by simp [down]) (judgeStandby_down h _ down)
  case closed => exact fun closed => answered (by simp [closed]) (judgeStandby_closed h _ closed)

end Sys2Proof.Machine
end

section
/-! PROOFS. Inversion of the model's shared operations: what an event, a serve, a delivery or the taking of a hand-off comes
to. The proofs of the obligations cite these instead of unfolding the operations. -/

namespace Sys2Proof

/-- The first member of a list that satisfies a test, with what stands before and behind it. -/
theorem takeFirst_eq_some {α : Type} {p : α → Bool} {l : List α} {a : α} {rest : List α} :
    takeFirst p l = some (a, rest) ↔
      ∃ before after, l = before ++ a :: after ∧ (∀ x ∈ before, p x = false) ∧ p a = true ∧ rest = before ++ after := by
  induction l generalizing a rest with
  | nil => simp [takeFirst]
  | cons x xs ih =>
    by_cases hx : p x = true
    · simp only [takeFirst, hx, if_true, Option.some.injEq, Prod.mk.injEq]
      constructor
      · rintro ⟨rfl, rfl⟩
        exact ⟨[], xs, rfl, by simp, hx, rfl⟩
      · rintro ⟨before, after, split, no, yes, rfl⟩
        cases before with
        | nil => simpa using split
        | cons y ys =>
          obtain ⟨rfl, -⟩ : x = y ∧ xs = ys ++ a :: after := by simpa using split
          exact absurd hx (by simp [no x (by simp)])
    · have off : p x = false := by simpa using hx
      simp only [takeFirst, off, Bool.false_eq_true, if_false]
      constructor
      · intro h
        cases found : takeFirst p xs with
        | none => simp [found] at h
        | some y =>
          obtain ⟨b, bs⟩ := y
          simp only [found, Option.some.injEq, Prod.mk.injEq] at h
          obtain ⟨rfl, rfl⟩ := h
          obtain ⟨before, after, rfl, no, yes, rfl⟩ := ih.1 found
          exact ⟨x :: before, after, rfl, by simpa [off] using no, yes, rfl⟩
      · rintro ⟨before, after, split, no, yes, rfl⟩
        cases before with
        | nil =>
          obtain ⟨rfl, -⟩ : x = a ∧ xs = after := by simpa using split
          exact absurd yes hx
        | cons y ys =>
          obtain ⟨rfl, rfl⟩ : x = y ∧ xs = ys ++ a :: after := by simpa using split
          have found := ih.2 ⟨ys, after, rfl, fun z hz => no z (by simp [hz]), yes, rfl⟩
          simp [found]

/-- No member of a list satisfies a test. -/
theorem takeFirst_eq_none {α : Type} {p : α → Bool} {l : List α} :
    takeFirst p l = none ↔ ∀ x ∈ l, p x = false := by
  induction l with
  | nil => simp [takeFirst]
  | cons x xs ih =>
    by_cases hx : p x = true
    · simp [takeFirst, hx]
    · have off : p x = false := by simpa using hx
      simp only [takeFirst, off, Bool.false_eq_true, if_false, List.forall_mem_cons, true_and]
      rw [← ih]
      cases found : takeFirst p xs <;> simp

end Sys2Proof

namespace Sys2Proof.Machine

/-- An event leaves the state as it is, or is taken. -/
theorem event_cases {f : State → State} {s t : State} (h : event f s = .next t) :
    t = s ∨ (s.resetLow = false ∧ t = f s) := by
  cases low : s.resetLow <;> simp [event, low] at h
  · exact .inr ⟨rfl, h.symm⟩
  · exact .inl h.symm

/-- R184: a serve finds no command of its row, or takes the head of the intake, acts by it and answers. -/
theorem serve_cases (code : Nat) (f : MgmtCommand → State → Option (Answer × State)) (s : State) :
    serve code f s = s ∨ ∃ e rest a u, mgmtReady s = true ∧ s.mgmtIntake = e :: rest ∧
      f e.command { s with mgmtIntake := rest } = some (a, u) ∧ serve code f s = mgmtFinish [mgmtReply e code a] u := by
  unfold serve nextCommand
  by_cases ready : mgmtReady s = true
  · rw [if_pos ready]
    cases intake : s.mgmtIntake with
    | nil => exact .inl rfl
    | cons e rest =>
      cases found : f e.command { s with mgmtIntake := rest } with
      | none => left; simp only [found]
      | some x =>
        obtain ⟨a, u⟩ := x
        right
        exact ⟨e, rest, a, u, ready, rfl, found, by simp only [found]⟩
  · rw [if_neg ready]
    exact .inl rfl

/-- R97: nothing is delivered, or the head of the field intake is. -/
theorem deliver_eq_some {s t : State} {e : FieldEntry} (h : deliver s = some (e, t)) :
    ∃ rest, s.fieldIntake = e :: rest ∧ t = { s with fieldIntake := rest } := by
  unfold deliver at h
  split at h
  · cases h
  · split at h
    · cases h
    · next intake => cases h; exact ⟨_, intake, rfl⟩

/-- R80, R81: a request is picked from the head of its queue, with no reply waiting and no held entry servable. -/
theorem pickedRequest_eq_some {s : State} {o : Origin} {q : Request} {rest : List Request}
    (h : pickedRequest s = some (o, q, rest)) : queueOfPort s (portOfOrigin o) = q :: rest := by
  unfold pickedRequest at h
  split at h
  · cases h
  · split at h
    · cases h
    · split at h
      · cases h
      · next queue => cases h; exact queue

end Sys2Proof.Machine
end

section
/-! PROOFS. The acts on the day: the few ways in which a command changes the phase, the clock, the Calendar, the Guest Table
and the Walker. Every command but the completion of an opening check is a chain of acts, so that an invariant of these blocks
is proved act by act. -/

namespace Sys2Proof.Machine

/-! ## What the invariants of the day speak of -/

/-- Two states agree on what the invariants of the day speak of, and on the queue of commands. -/
structure SameDay (s t : State) : Prop where
  pending : t.pending = s.pending
  phase : t.day.phase = s.day.phase
  clock : t.day.clock = s.day.clock
  passes : t.day.park.passesPerGuest = s.day.park.passesPerGuest
  windows : t.calendar.windows = s.calendar.windows
  flex : t.calendar.flex = s.calendar.flex
  guests : t.guests = s.guests
  workList : t.walker.workList = s.walker.workList
  item : t.walker.item = s.walker.item
  displacing : t.walker.displacing = s.walker.displacing
  handed : t.out.workItems = s.out.workItems

theorem SameDay.refl (s : State) : SameDay s s := by constructor <;> rfl

theorem SameDay.windowOf {s t : State} (h : SameDay s t) (r : Ride) (k : Nat) : windowOf t r k = windowOf s r k := by
  rw [Machine.windowOf, Machine.windowOf, h.windows]

/-- R6, R14, R194, R195: what a day close or a reset leaves of the day. -/
structure DayGone (s t : State) : Prop where
  pending : t.pending = s.pending
  phase : t.day.phase = .night
  passes : t.day.park.passesPerGuest = s.day.park.passesPerGuest ∨ t.day.park.passesPerGuest = 2
  windows : ∀ r, look t.calendar.windows r = []
  flex : ∀ r, look t.calendar.flex r = []
  guests : t.guests = []
  workList : t.walker.workList = []
  item : t.walker.item = none
  displacing : ∀ r, look t.walker.displacing r = 0

/-- R41, R42: a window whose holders, counts, times and state stand. -/
structure SameUse (w w' : Window) : Prop where
  start : w'.start = w.start
  stop : w'.stop = w.stop
  state : w'.state = w.state
  booked : w'.booked = w.booked
  held : w'.held = w.held
  redeemed : w'.redeemed = w.redeemed
  expired : w'.expired = w.expired
  movedOut : w'.movedOut = w.movedOut
  holders : w'.holders = w.holders

theorem SameUse.refl (w : Window) : SameUse w w := by constructor <;> rfl

/-- R52, R53, R54: a holder leaves a window by expiry, removal or redemption, and the counts follow. -/
inductive HolderLeft (h : Holder) (w : Window) : Window → Prop
  | expired (rest : List Holder) : w.holders = h :: rest → HolderLeft h w (expireOut h rest w)
  | removed : HolderLeft h w (removeOut h w)
  | redeemed : HolderLeft h w (redeemOut h w)

/-- R44: the windows that a test selects enter the state that a kind of item needs. -/
def movedStates (kind : WorkKind) (sel : Nat → Window → Bool) (ws : List Window) : List Window :=
  ws.mapIdx fun k w => if sel k w then { w with state := kind.needs } else w

/-- R48: the items of the windows with holders that a test selects, in window index order. -/
def movedItems (r : Ride) (kind : WorkKind) (sel : Nat → Window → Bool) (ws : List Window) : List WorkItem :=
  (ws.zipIdx.filter fun x => sel x.2 x.1).flatMap fun x => itemFor r x.2 kind x.1

/-- R46, R47, R48: the windows of a ride that a test selects enter the state that a kind of item needs, and an item for each
of them with holders is handed to the Walker. -/
def moveWindows (r : Ride) (kind : WorkKind) (sel : Nat → Window → Bool) (s : State) : State :=
  handItems (movedItems r kind sel (look s.calendar.windows r)) (changeWindows r (movedStates kind sel) s)

/-- R44: a window may enter the state that a kind of item needs: LOST from FUTURE or REDEEMABLE, PAST from REDEEMABLE at a
minute not before its end. -/
def mayMove (m : Nat) (kind : WorkKind) (w : Window) : Prop :=
  match kind with
  | .displace => w.state = .future ∨ w.state = .redeemable
  | .expire => w.state = .redeemable ∧ w.stop ≤ m

/-! ## The acts -/

/-- An act on the day. `m` is the clock's minute at which windows open and close. -/
inductive Act (m : Nat) (s : State) : State → Prop
  | same {t} : SameDay s t → Act m s t
  | clockSet (n : Nat) : Act m s { s with day := { s.day with clock := some n } }
  | passesSet (v : Nat) : s.day.phase = .night → 1 ≤ v →
      Act m s { s with day := { s.day with park := { s.day.park with passesPerGuest := v } } }
  | phaseMoves (p : Phase) : inDay s.day.phase = true → inDay p = true → Act m s { s with day := { s.day with phase := p } }
  | checkBegins : s.day.phase = .night → s.day.clock.isSome = true → Act m s { s with day := { s.day with phase := .checking } }
  | checkEnds : s.day.phase = .checking → Act m s { s with day := { s.day with phase := .night } }
  | gone {t} : DayGone s t → Act m s t
  | windowsTouched (r : Ride) (f : List Window → List Window) :
      List.Forall₂ SameUse (look s.calendar.windows r) (f (look s.calendar.windows r)) → Act m s (changeWindows r f s)
  | windowOpens {r : Ride} {k : Nat} {w : Window} : windowOf s r k = some w → w.state = .future → m ≤ w.start →
      Act m s (putWindow r k { w with state := .redeemable } s)
  | windowsMove (r : Ride) (kind : WorkKind) (sel : Nat → Window → Bool) :
      (∀ k w, windowOf s r k = some w → sel k w = true → mayMove m kind w) → Act m s (moveWindows r kind sel s)
  | grant {r : Ride} {k : Nat} {w : Window} {c : Credential} {p : Pass} : windowOf s r k = some w → w.state = .future →
      c ≠ 0 → c ≠ BitVec.allOnes 48 → guestRefusal s.day.park.passesPerGuest c r s.guests = none →
      p.ride = r → p.place = .window k →
      Act m s { putWindow r k (placeIn ⟨c, p.party⟩ w) s with guests := addPass c p s.guests }
  | shift {r : Ride} {k j : Nat} {w v : Window} {h : Holder} {rest : List Holder} {f : Pass → Pass} :
      windowOf s r k = some w → w.holders = h :: rest → windowOf s r j = some v → v.state = .future → k ≠ j →
      (∀ p, (f p).ride = p.ride ∧ (f p).party = p.party ∧ (f p).place = .window j) →
      Act m s { putWindow r j (placeIn h v) (putWindow r k (moveOut h rest w) s) with
        guests := changePass h.credential r f s.guests }
  | flexed {r : Ride} {k : Nat} {w : Window} {h : Holder} {rest : List Holder} {f : Pass → Pass} :
      windowOf s r k = some w → w.holders = h :: rest →
      (∀ p, (f p).ride = p.ride ∧ (f p).party = p.party ∧ (f p).place = .flex) →
      Act m s { changeFlex r (fun fs => fs ++ [h]) (putWindow r k (moveOut h rest w) s) with
        guests := changePass h.credential r f s.guests }
  | leaves {r : Ride} {k : Nat} {w w' : Window} {h : Holder} : windowOf s r k = some w →
      holderIn h.credential w.holders = some h → HolderLeft h w w' →
      Act m s { putWindow r k w' s with guests := dropPass h.credential r s.guests }
  | leavesFlex {r : Ride} {c : Credential} {h : Holder} : holderIn c (look s.calendar.flex r) = some h →
      Act m s { changeFlex r (withoutHolder c) s with guests := dropPass c r s.guests }
  | itemsDropped {w : List (List WorkItem)} : inDay s.day.phase = false →
      Act m s { s with out := { s.out with workItems := w } }
  | itemsJoin {before after : List (List WorkItem)} {is : List WorkItem} : inDay s.day.phase = true →
      s.out.workItems = before ++ is :: after →
      Act m s { s with
        walker := { s.walker with
          workList := s.walker.workList ++ is, displacing := is.foldl countItem s.walker.displacing }
        out := { s.out with workItems := before ++ after } }
  | itemTaken : s.walker.item = none → Act m s { s with walker := takeItem s.walker }
  | itemCompletes {i : WorkItem} : s.walker.item = some i →
      (∀ w, windowOf s i.ride i.window = some w → w.holders = []) → Act m s (completeItem i s)

/-- A chain of acts, whose windows open and close at the minute `m`. -/
def Acts (m : Nat) : State → State → Prop := Relation.ReflTransGen (Act m)

theorem Acts.refl (m : Nat) (s : State) : Acts m s s := Relation.ReflTransGen.refl

theorem Acts.trans {m : Nat} {s t u : State} (h : Acts m s t) (h' : Acts m t u) : Acts m s u :=
  Relation.ReflTransGen.trans h h'

theorem Act.acts {m : Nat} {s t : State} (h : Act m s t) : Acts m s t := Relation.ReflTransGen.single h

theorem Acts.same {m : Nat} {s t : State} (h : SameDay s t) : Acts m s t := (Act.same h).acts

/-- An act followed by a change of nothing that the invariants of the day speak of. -/
theorem Acts.andSame {m : Nat} {s t u : State} (h : Acts m s t) (h' : SameDay t u) : Acts m s u := h.trans (.same h')

/-- What every act of a chain keeps, the chain keeps. -/
theorem Acts.keep {m : Nat} {P : State → Prop} (step : ∀ s t, P s → Act m s t → P t) {s t : State} (h : Acts m s t)
    (p : P s) : P t := by
  induction h with
  | refl => exact p
  | tail _ act ih => exact step _ _ ih act

end Sys2Proof.Machine
end

section
/-! PROOFS. Chapter 3, the Calendar's claims as acts on the day. -/

namespace Sys2Proof.Machine

/-! ## Records of windows -/

theorem windowOf_changeWindows (r q : Ride) (k : Nat) (f : List Window → List Window) (s : State) :
    windowOf (changeWindows r f s) q k = if r = q then (f (look s.calendar.windows r))[k]? else windowOf s q k := by
  rw [windowOf, changeWindows_windows, look_upd]
  split <;> rfl

theorem windowOf_putWindow_other {r q : Ride} {k j : Nat} (w : Window) (s : State) (h : ¬(r = q ∧ k = j)) :
    windowOf (putWindow r k w s) q j = windowOf s q j := by
  rw [putWindow, windowOf_changeWindows]
  split
  · next e =>
    subst e
    exact List.getElem?_set_ne fun e => h ⟨rfl, e⟩
  · rfl

theorem windowOf_putWindow_same {r : Ride} {k : Nat} {w : Window} (w' : Window) {s : State}
    (h : windowOf s r k = some w) : windowOf (putWindow r k w' s) r k = some w' := by
  obtain ⟨inside, -⟩ := List.getElem?_eq_some_iff.1 h
  rw [putWindow, windowOf_changeWindows, if_pos rfl]
  exact List.getElem?_set_self inside

theorem windowOf_changeFlex (r q : Ride) (k : Nat) (f : List Holder → List Holder) (s : State) :
    windowOf (changeFlex r f s) q k = windowOf s q k := rfl

/-- R51, R119: a shift goes to the first later FUTURE window with room under C. -/
theorem shiftTarget_eq_some {k n j : Nat} {ws : List Window} :
    shiftTarget k n ws = some j ↔ k < j ∧ (∃ v, ws[j]? = some v ∧ v.state = .future ∧ v.booked + n ≤ v.capacity) ∧
      ∀ i u, k < i → i < j → ws[i]? = some u → ¬(u.state = .future ∧ u.booked + n ≤ u.capacity) := by
  simp only [shiftTarget, Option.map_eq_some_iff, List.find?_eq_some_iff_getElem, Bool.and_eq_true, decide_eq_true_eq,
    List.length_drop, List.length_zipIdx, List.getElem_drop, List.getElem_zipIdx, Nat.zero_add]
  constructor
  · rintro ⟨⟨v, j'⟩, ⟨roomy, i, inside, eq, first⟩, rfl⟩
    obtain ⟨rfl, rfl⟩ := Prod.mk.injEq .. ▸ eq
    refine ⟨by omega, ⟨_, List.getElem?_eq_getElem (by omega), roomy⟩, fun l u after before found hu => ?_⟩
    obtain ⟨here, rfl⟩ := List.getElem?_eq_some_iff.1 found
    have := first (l - (k + 1)) (by simp only [] at before; omega)
    simp only [show k + 1 + (l - (k + 1)) = l by omega] at this
    simp [hu] at this
  · rintro ⟨after, ⟨v, found, roomy⟩, first⟩
    obtain ⟨here, rfl⟩ := List.getElem?_eq_some_iff.1 found
    refine ⟨(ws[j], j), ⟨roomy, j - (k + 1), by omega, by simp only [show k + 1 + (j - (k + 1)) = j by omega], ?_⟩, rfl⟩
    intro i hi
    have := first (k + 1 + i) _ (by omega) (by omega) (List.getElem?_eq_getElem (by omega))
    simpa only [Bool.not_eq_true', Bool.and_eq_false_iff, decide_eq_false_iff_not, not_and_or] using this

theorem shiftTarget_eq_none {k n : Nat} {ws : List Window} :
    shiftTarget k n ws = none ↔
      ∀ i u, k < i → ws[i]? = some u → ¬(u.state = .future ∧ u.booked + n ≤ u.capacity) := by
  constructor
  · intro none i u after found roomy
    simp only [shiftTarget, Option.map_eq_none_iff, List.find?_eq_none, Bool.and_eq_true, decide_eq_true_eq] at none
    refine none (u, i) ?_ roomy
    obtain ⟨here, rfl⟩ := List.getElem?_eq_some_iff.1 found
    refine List.mem_iff_getElem.2 ⟨i - (k + 1), by simp; omega, ?_⟩
    simp only [List.getElem_drop, List.getElem_zipIdx, Nat.zero_add, show k + 1 + (i - (k + 1)) = i by omega]
  · intro all
    cases found : shiftTarget k n ws with
    | none => rfl
    | some j =>
      obtain ⟨after, ⟨v, here, roomy⟩, -⟩ := shiftTarget_eq_some.1 found
      exact absurd roomy (all j v after here)

/-! ## A displace claim -/

/-- R51: what a displace claim on a window with holders answers: a shift into its target, or a pass put on the flex list. -/
theorem displaceClaim_cases {r : Ride} {k : Nat} {b : Bool} {s t : State} {d : Displaced}
    (h : displaceClaim r k b s = some (d, t)) :
    ∃ w rest, windowOf s r k = some w ∧ w.holders = d.holder :: rest ∧ d.left = rest.length ∧ d.oldStart = w.start ∧
      ((∃ j v, k < j ∧ windowOf s r j = some v ∧ v.state = .future ∧ d.target = some (j, v.start, v.stop) ∧
          t = { putWindow r j (placeIn d.holder v) (putWindow r k (moveOut d.holder rest w) s) with
            guests := changePass d.holder.credential r (fun p => { p with place := .window j, moves := p.moves + 1 })
              s.guests }) ∨
        (d.target = none ∧
          t = { changeFlex r (fun fs => fs ++ [d.holder]) (putWindow r k (moveOut d.holder rest w) s) with
            guests := changePass d.holder.credential r (fun p => { p with place := .flex }) s.guests })) := by
  unfold displaceClaim at h
  split at h
  · cases h
  · next w window =>
    split at h
    · cases h
    · next x rest holders =>
      simp only [] at h
      split at h
      · next j v target =>
        obtain ⟨rfl, rfl⟩ := Prod.mk.injEq .. ▸ Option.some.inj h
        obtain ⟨j', chosen, found⟩ := Option.bind_eq_some_iff.1 target
        obtain ⟨v', there, eq⟩ := Option.map_eq_some_iff.1 found
        obtain ⟨rfl, rfl⟩ := Prod.mk.injEq .. ▸ eq
        have chosen : shiftTarget k x.party
            (look (putWindow r k (moveOut x rest w) s).calendar.windows r) = some j' := by
          split at chosen
          · exact chosen
          · cases chosen
        obtain ⟨later, ⟨u, here, future, -⟩, -⟩ := shiftTarget_eq_some.1 chosen
        obtain rfl : v' = u := Option.some.inj (there.symm.trans here)
        rw [windowOf_putWindow_other _ _ (by omega)] at there
        exact ⟨w, rest, window, holders, rfl, rfl, .inl ⟨j', v', later, there, future, rfl, rfl⟩⟩
      · obtain ⟨rfl, rfl⟩ := Prod.mk.injEq .. ▸ Option.some.inj h
        exact ⟨w, rest, window, holders, rfl, rfl, .inr ⟨rfl, rfl⟩⟩

/-- R51: the answer "empty" is given for a window without holders, or for one that does not stand. -/
theorem displaceClaim_eq_none {r : Ride} {k : Nat} {b : Bool} {s : State} (h : displaceClaim r k b s = none) :
    ∀ w, windowOf s r k = some w → w.holders = [] := by
  intro w window
  simp only [displaceClaim, window] at h
  split at h
  · assumption
  · split at h <;> cases h

theorem displaceClaim_acts {r : Ride} {k : Nat} {b : Bool} {s t : State} {d : Displaced} (m : Nat)
    (h : displaceClaim r k b s = some (d, t)) : Acts m s t := by
  obtain ⟨w, rest, window, holders, -, -, ⟨j, v, later, there, future, -, rfl⟩ | ⟨-, rfl⟩⟩ := displaceClaim_cases h
  · refine Act.acts (Act.shift window holders there future (by omega) fun p => ?_)
    exact ⟨rfl, rfl, rfl⟩
  · refine Act.acts (Act.flexed window holders fun p => ?_)
    exact ⟨rfl, rfl, rfl⟩

/-- The window of a displace claim keeps the holders behind its head. -/
theorem displaceClaim_left {r : Ride} {k : Nat} {b : Bool} {s t : State} {d : Displaced}
    (h : displaceClaim r k b s = some (d, t)) : ∀ w, windowOf t r k = some w → w.holders.length = d.left := by
  obtain ⟨w, rest, window, -, left, -, ⟨j, v, later, -, -, -, rfl⟩ | ⟨-, rfl⟩⟩ := displaceClaim_cases h
  · intro u hu
    have : windowOf (putWindow r j (placeIn d.holder v) (putWindow r k (moveOut d.holder rest w) s)) r k = some u := hu
    rw [windowOf_putWindow_other _ _ (by omega), windowOf_putWindow_same _ window] at this
    cases this
    exact left.symm
  · intro u hu
    have : windowOf (putWindow r k (moveOut d.holder rest w) s) r k = some u := hu
    rw [windowOf_putWindow_same _ window] at this
    cases this
    exact left.symm

/-! ## An expire claim -/

theorem expireClaim_cases {r : Ride} {k : Nat} {s t : State} {e : Expired} (h : expireClaim r k s = some (e, t)) :
    ∃ w rest, windowOf s r k = some w ∧ w.holders = e.holder :: rest ∧ e.left = rest.length ∧ e.oldStart = w.start ∧
      t = { putWindow r k (expireOut e.holder rest w) s with guests := dropPass e.holder.credential r s.guests } := by
  unfold expireClaim at h
  split at h
  · cases h
  · next w window =>
    split at h
    · cases h
    · next x rest holders =>
      cases h
      exact ⟨w, rest, window, holders, rfl, rfl, rfl⟩

theorem expireClaim_eq_none {r : Ride} {k : Nat} {s : State} (h : expireClaim r k s = none) :
    ∀ w, windowOf s r k = some w → w.holders = [] := by
  intro w window
  simp only [expireClaim, window] at h
  split at h
  · assumption
  · cases h

theorem holderIn_head (h : Holder) (rest : List Holder) : holderIn h.credential (h :: rest) = some h := by
  simp [holderIn]

theorem expireClaim_acts {r : Ride} {k : Nat} {s t : State} {e : Expired} (m : Nat)
    (h : expireClaim r k s = some (e, t)) : Acts m s t := by
  obtain ⟨w, rest, window, holders, -, -, rfl⟩ := expireClaim_cases h
  exact (Act.leaves window (holders ▸ holderIn_head e.holder rest) (.expired rest holders)).acts

theorem expireClaim_left {r : Ride} {k : Nat} {s t : State} {e : Expired}
    (h : expireClaim r k s = some (e, t)) : ∀ w, windowOf t r k = some w → w.holders.length = e.left := by
  obtain ⟨w, rest, window, -, left, -, rfl⟩ := expireClaim_cases h
  intro u hu
  have : windowOf (putWindow r k (expireOut e.holder rest w) s) r k = some u := hu
  rw [windowOf_putWindow_same _ window] at this
  cases this
  exact left.symm

/-! ## Removals and redemptions -/

theorem holderIn_credential {c : Credential} {hs : List Holder} {h : Holder} (found : holderIn c hs = some h) :
    h.credential = c := by
  simpa using List.find?_some found

theorem removalClaim_acts {c : Credential} {r : Ride} {s t : State} {x : Removed} (m : Nat)
    (h : removalClaim c r s = some (x, t)) : Acts m s t := by
  unfold removalClaim at h
  split at h
  · cases h
  · split at h
    · split at h
      · cases h
      · next w window =>
        split at h
        · cases h
        · next y found =>
          cases h
          obtain rfl := holderIn_credential found
          exact (Act.leaves window found .removed).acts
    · split at h
      · cases h
      · next y found =>
        cases h
        exact (Act.leavesFlex found).acts

theorem redeemFromWindow_acts {c : Credential} {r : Ride} {k : Nat} {w : Window} {h : Holder} {s : State} (m : Nat)
    (window : windowOf s r k = some w) (found : holderIn c w.holders = some h) :
    Acts m s (redeemFromWindow c r k w h s) := by
  obtain rfl := holderIn_credential found
  exact (Act.leaves window found .redeemed).acts

theorem redemptionClaim_acts (m : Nat) (c : Credential) (r : Ride) (s : State) :
    Acts m s (redemptionClaim c r s).2 := by
  unfold redemptionClaim
  split
  · exact .refl ..
  · split
    · split
      · exact .refl ..
      · next w window =>
        split
        · exact .refl ..
        · next y found =>
          split
          · exact .refl ..
          · exact redeemFromWindow_acts m window found
          · exact .refl ..
          · split
            · exact redeemFromWindow_acts m window found
            · exact .refl ..
    · split
      · exact .refl ..
      · next y found =>
        split
        · exact (Act.leavesFlex found).acts
        · exact .refl ..

/-! ## A grant -/

theorem placeGrant_acts {r : Ride} {k : Nat} {w : Window} {c : Credential} {s : State} (m party : Nat) (o : Origin)
    (window : windowOf s r k = some w) (future : w.state = .future) (valid : validCredential c = true)
    (room : guestRefusal s.day.park.passesPerGuest c r s.guests = none) : Acts m s (placeGrant r k c party o s) := by
  obtain ⟨notZero, notOnes⟩ := validCredential_iff.1 valid
  refine (Act.grant (p := ⟨r, party, .window k, 0, o, minuteNow s⟩) window future notZero notOnes room rfl rfl).acts.andSame ?_
  simp only [placeGrant, window, grantPass]
  split <;> constructor <;> rfl

/-! ## Boundaries, ride states and recomputations -/

theorem changeWindows_congr {r : Ride} {f g : List Window → List Window} {s : State}
    (h : f (look s.calendar.windows r) = g (look s.calendar.windows r)) : changeWindows r f s = changeWindows r g s := by
  unfold changeWindows upd
  rw [h]

/-- The one member of a numbered list at a place. -/
theorem filter_zipIdx_place {α : Type} (l : List α) (n k : Nat) (h : n ≤ k) (h' : k - n < l.length) :
    ((l.zipIdx n).filter fun x => decide (x.2 = k)) = [(l[k - n], k)] := by
  induction l generalizing n with
  | nil => simp at h'
  | cons x xs ih =>
    by_cases e : n = k
    · subst e
      have none : ((xs.zipIdx (n + 1)).filter fun x => decide (x.2 = n)) = [] := by
        rw [List.filter_eq_nil_iff]
        rintro ⟨y, i⟩ hy
        have : n + 1 ≤ i := List.le_snd_of_mem_zipIdx hy
        simp only [decide_eq_true_eq]
        omega
      simp [List.zipIdx_cons, none]
    · have rest := ih (n + 1) (by omega) (by simp at h'; omega)
      simp only [List.zipIdx_cons, List.filter_cons, e, decide_false, Bool.false_eq_true, if_false, rest]
      simp [show k - n = (k - (n + 1)) + 1 by omega]

/-- One window that enters the state its item needs, with the item if it has holders. -/
theorem moveWindows_one {r : Ride} {k : Nat} {w : Window} {s : State} (kind : WorkKind) (window : windowOf s r k = some w) :
    handItems (itemFor r k kind w) (putWindow r k { w with state := kind.needs } s) =
      moveWindows r kind (fun j _ => decide (j = k)) s := by
  obtain ⟨inside, rfl⟩ := List.getElem?_eq_some_iff.1 window
  have one := filter_zipIdx_place (look s.calendar.windows r) 0 k (Nat.zero_le k) inside
  unfold moveWindows movedItems movedStates putWindow
  simp only [one, List.flatMap_cons, List.flatMap_nil, List.append_nil, Nat.sub_zero]
  congr 1
  apply changeWindows_congr
  apply List.ext_getElem (by simp)
  intro j hj hj'
  rw [List.getElem_set, List.getElem_mapIdx]
  by_cases e : j = k
  · subst e; simp
  · simp [e, Ne.symm e]

theorem moveWindow_acts {m : Nat} {r : Ride} {k : Nat} {w : Window} {s : State} (kind : WorkKind)
    (window : windowOf s r k = some w) (may : mayMove m kind w) :
    Acts m s (handItems (itemFor r k kind w) (putWindow r k { w with state := kind.needs } s)) := by
  rw [moveWindows_one kind window]
  refine Act.acts (.windowsMove r kind _ fun j v found here => ?_)
  obtain rfl : j = k := by simpa using here
  obtain rfl : v = w := Option.some.inj (found.symm.trans window)
  exact may

/-- R47: a state hand-off of DOWN or CLOSED moves every REDEEMABLE window. -/
theorem takeCalendarState_eq {r : Ride} {st : RideState} {s : State} (h : st = .down ∨ st = .closed) :
    takeCalendarState r st s = moveWindows r .displace (fun _ w => decide (w.state = .redeemable)) s := by
  rw [takeCalendarState, if_pos h]
  unfold moveWindows movedItems movedStates lostItems
  congr 1
  apply changeWindows_congr
  apply List.ext_getElem (by simp)
  intro j hj hj'
  simp [loseRedeemable, WorkKind.needs]

theorem takeCalendarState_acts (m : Nat) (r : Ride) (st : RideState) (s : State) :
    Acts m s (takeCalendarState r st s) := by
  by_cases h : st = .down ∨ st = .closed
  · rw [takeCalendarState_eq h]
    exact Act.acts (.windowsMove r .displace _ fun k w _ here => .inr (by simpa using here))
  · rw [takeCalendarState, if_neg h]
    exact .refl ..

theorem forall₂_map_sameUse {f : Window → Window} (ws : List Window) (h : ∀ w, SameUse w (f w)) :
    List.Forall₂ SameUse ws (ws.map f) := by
  rw [List.forall₂_map_right_iff]
  exact List.forall₂_same.2 fun w _ => h w

theorem takeRecomputation_acts (m : Nat) (c : RecomputationClaim) (s : State) : Acts m s (takeRecomputation c s) := by
  refine Act.acts (.windowsTouched c.ride _ (forall₂_map_sameUse _ fun w => ?_))
  unfold recomputeWindow
  split
  · constructor <;> rfl
  · exact .refl w

theorem windowEnd_acts (m : Nat) (r : Ride) (k : Nat) (s : State) : Acts m s (windowEnd r k s) := by
  unfold windowEnd
  split
  · exact .refl ..
  · next w window =>
    split
    · obtain ⟨inside, rfl⟩ := List.getElem?_eq_some_iff.1 window
      refine Acts.andSame (Act.acts (.windowsTouched r (fun ws => ws.set k _) ?_)) (by constructor <;> rfl)
      rw [List.forall₂_iff_get]
      refine ⟨by simp, fun j hj hj' => ?_⟩
      simp only [List.get_eq_getElem, List.getElem_set]
      split
      · next e => subst e; constructor <;> rfl
      · exact .refl _
    · exact .refl ..

theorem earlyRedemption_acts {m : Nat} {s : State} (r : Ride) (k : Nat)
    (minute : ∀ q, s.day.clock = some (60 * q) → q = m) : Acts m s (earlyRedemption r k s) := by
  unfold earlyRedemption
  split
  · exact .refl ..
  · next w window =>
    split
    · next h =>
      obtain ⟨future, early, clock⟩ := h
      have now := minute _ (clockAt_iff.1 clock)
      have opens : Acts m s (putWindow r k { w with state := .redeemable } s) :=
        Act.acts (.windowOpens window future (by omega))
      have lost : Acts m s (handItems (itemFor r k .displace w) (putWindow r k { w with state := .lost } s)) :=
        moveWindow_acts .displace window (.inl future)
      split
      · exact opens
      · exact opens
      · exact lost
      · exact lost
      · exact .refl ..
    · exact .refl ..

theorem closingTime_acts {m : Nat} {s : State} (r : Ride) (k : Nat)
    (minute : ∀ q, s.day.clock = some (60 * q) → q = m) : Acts m s (closingTime r k s) := by
  unfold closingTime
  split
  · exact .refl ..
  · next w window =>
    split
    · next h =>
      obtain ⟨redeemable, clock⟩ := h
      have now := minute _ (clockAt_iff.1 clock)
      exact moveWindow_acts .expire window ⟨redeemable, by omega⟩
    · exact .refl ..

end Sys2Proof.Machine
end

section
/-! PROOFS. The Walker, the Pass Engine, the Admission Unit, the Day Controller, the clock and the resets as acts on the day. -/

namespace Sys2Proof.Machine

/-! ## The Walker (chapter 7) -/

theorem nextItem_acts (m : Nat) {s : State} (idle : s.walker.item = none) : Acts m s (nextItem s) := by
  unfold nextItem
  split
  · exact .same (by constructor <;> rfl)
  · exact Act.acts (.itemTaken idle)

theorem sendChange_same (f : Option PartFrame) (s : State) : SameDay s (sendChange f s) := by
  cases f with
  | none => exact .refl s
  | some f =>
    unfold sendChange
    simp only []
    split <;> constructor <;> rfl

theorem completeItem_item (i : WorkItem) (s : State) : (completeItem i s).walker.item = none := by
  unfold completeItem
  simp only []
  split
  · split <;> rfl
  · rfl

/-- R117, R122, R123: a step whose window has as many holders left as its claim says. -/
theorem finishStep_acts (m : Nat) {i : WorkItem} {s : State} (f : Option PartFrame) (left : Nat)
    (item : s.walker.item = some i)
    (holders : ∀ w, windowOf s i.ride i.window = some w → w.holders.length = left) : Acts m s (finishStep i f left s) := by
  unfold finishStep
  split
  · next none =>
    subst none
    have done : Acts m s (completeItem i s) :=
      Act.acts (.itemCompletes item fun w found => List.eq_nil_of_length_eq_zero (holders w found))
    have sent : Acts m s (sendChange f (completeItem i s)) := done.andSame (sendChange_same ..)
    simp only []
    split
    · exact sent
    · exact sent.trans (nextItem_acts m ((sendChange_same f (completeItem i s)).item.trans (completeItem_item i s)))
  · exact .same (sendChange_same ..)

theorem displaceStep_acts (m : Nat) {i : WorkItem} {s : State} (item : s.walker.item = some i) :
    Acts m s (displaceStep i s) := by
  unfold displaceStep
  split
  · next none =>
    exact finishStep_acts m _ 0 item fun w found => by rw [displaceClaim_eq_none none w found, List.length_nil]
  · next d t claimed =>
    have item' : t.walker.item = some i := by
      obtain ⟨c, g, rfl⟩ := displaceClaim_frame claimed
      exact item
    have finish (f : Option PartFrame) (g : RideCounts → RideCounts) :
        Acts m s (finishStep i f d.left (changeCounts i.ride g t)) :=
      ((displaceClaim_acts m claimed).andSame (by constructor <;> rfl)).trans
        (finishStep_acts m f d.left item' fun w found => displaceClaim_left claimed w found)
    simp only []
    split <;> exact finish ..

theorem expireStep_acts (m : Nat) {i : WorkItem} {s : State} (item : s.walker.item = some i) :
    Acts m s (expireStep i s) := by
  unfold expireStep
  split
  · next none =>
    exact finishStep_acts m _ 0 item fun w found => by rw [expireClaim_eq_none none w found, List.length_nil]
  · next e t claimed =>
    have item' : t.walker.item = some i := by
      obtain ⟨c, g, rfl⟩ := expireClaim_frame claimed
      exact item
    exact ((expireClaim_acts m claimed).andSame (by constructor <;> rfl)).trans
      (finishStep_acts m _ e.left item' fun w found => expireClaim_left claimed w found)

theorem writeChange_acts (m : Nat) (f : PartFrame) (s : State) : Acts m s (writeChange f s) := by
  unfold writeChange
  simp only []
  split
  · exact .same (by constructor <;> rfl)
  · next idle =>
    split
    · exact .same (by constructor <;> rfl)
    · refine Acts.trans (.same ?_) (nextItem_acts m (by simpa using idle))
      constructor <;> rfl

theorem takeWorkItems_acts (m : Nat) {is : List WorkItem} {before after : List (List WorkItem)} {s : State}
    (handed : s.out.workItems = before ++ is :: after) :
    Acts m s (takeWorkItems is { s with out := { s.out with workItems := before ++ after } }) := by
  unfold takeWorkItems
  split
  · next day =>
    have joined := Act.acts (m := m) (.itemsJoin (s := s) day handed)
    simp only []
    split
    · next idle =>
      have none : s.walker.item = none := by
        simp only [walkerState] at idle
        split at idle
        · cases idle
        · split at idle
          · cases idle
          · next h => simpa using h
      exact joined.trans (Act.acts (.itemTaken none))
    · exact joined
  · next night => exact Act.acts (.itemsDropped (by simpa using night))

/-! ## Requests and taps (chapters 5 and 6) -/

theorem countReasons_same (rs : List (Option Ride × Reason)) (s : State) : SameDay s (countReasons rs s) := by
  obtain ⟨m, h⟩ := countReasons_frame rs s
  rw [h]; constructor <;> rfl

theorem flagFull_same (rs : List (Option Ride × Reason)) (s : State) : SameDay s (flagFull rs s) := by
  obtain ⟨f, h⟩ := flagFull_frame rs s
  rw [h]; constructor <;> rfl

theorem SameDay.trans {s t u : State} (h : SameDay s t) (h' : SameDay t u) : SameDay s u := by
  constructor
  · exact h'.pending.trans h.pending
  · exact h'.phase.trans h.phase
  · exact h'.clock.trans h.clock
  · exact h'.passes.trans h.passes
  · exact h'.windows.trans h.windows
  · exact h'.flex.trans h.flex
  · exact h'.guests.trans h.guests
  · exact h'.workList.trans h.workList
  · exact h'.item.trans h.item
  · exact h'.displacing.trans h.displacing
  · exact h'.handed.trans h.handed

/-- R50: a grant finds a FUTURE window that meets every condition, the first of its ride. -/
theorem grantWindow_eq_some {s : State} {r : Ride} {party k : Nat} {e l : Option Nat}
    (h : grantWindow s r party e l = some k) :
    ∃ w, windowOf s r k = some w ∧ grantable (minuteNow s) (rideProfile s r).lead party e l w = true := by
  obtain ⟨inside, meets, -⟩ := List.findIdx?_eq_some_iff_getElem.1 h
  exact ⟨_, List.getElem?_eq_getElem inside, meets⟩

/-- R86, R87, R92: a granted ride has no reason against it, and its window meets every condition. -/
theorem judgeRides_grant {s : State} {c : Credential} {party : Nat} {e l : Option Nat} {labels : List Label} {tried : Bool}
    {reasons earlier : List (Option Ride × Reason)} {r : Ride} {lb : Label} {k : Nat}
    (h : judgeRides s c party e l labels tried reasons = .grant r lb k earlier) :
    rideRefusal s c r = none ∧ grantWindow s r party e l = some k := by
  induction labels generalizing tried reasons with
  | nil => cases h
  | cons x xs ih =>
    unfold judgeRides at h
    split at h
    · exact ih h
    · split at h
      · exact ih h
      · next refused =>
        split at h
        · cases h
        · split at h
          · next found => cases h; exact ⟨refused, found⟩
          · exact ih h

theorem rideRefusal_eq_none {s : State} {c : Credential} {r : Ride} (h : rideRefusal s c r = none) :
    guestRefusal s.day.park.passesPerGuest c r s.guests = none := by
  unfold rideRefusal at h
  split at h
  · cases h
  · exact h

theorem validCredential_of_not_badRequest {c : Credential} {party count : Nat} {labels : List Label} {e l : Option Nat}
    (h : badRequest c party count labels e l ≠ true) : validCredential c = true := by
  by_contra off
  exact h (by simp [badRequest, off])

theorem judgeRequest_acts (m : Nat) (o : Origin) (c : Credential) (party count : Nat) (labels : List Label)
    (e l : Option Nat) (s : State) : Acts m s (judgeRequest o c party count labels e l s).2 := by
  unfold judgeRequest
  split
  · exact .refl ..
  · split
    · exact .refl ..
    · next good =>
      split
      · exact .refl ..
      · exact .same ((flagFull_same ..).trans (countReasons_same ..))
      · next r lb k earlier judged =>
        obtain ⟨free, found⟩ := judgeRides_grant judged
        obtain ⟨w, window, meets⟩ := grantWindow_eq_some found
        have future : w.state = .future := by
          simp only [grantable, Bool.and_eq_true, decide_eq_true_eq] at meets
          exact meets.1.1.1.1
        refine (placeGrant_acts m party o window future (validCredential_of_not_badRequest good)
          (rideRefusal_eq_none free)).andSame ?_
        exact ((flagFull_same ..).trans (countReasons_same ..)).trans (by constructor <;> rfl)

theorem serveCancel_acts (m : Nat) (c : Credential) (l : Label) (s : State) : Acts m s (serveCancel c l s).2 := by
  unfold serveCancel
  split
  · exact .refl ..
  · split
    · exact .refl ..
    · split
      · exact .refl ..
      · split
        · exact .refl ..
        · next removed => exact (removalClaim_acts m removed).andSame (by constructor <;> rfl)

theorem engineSend_same (fs : List (Port × PartFrame)) (s : State) : SameDay s (engineSend fs s) := by
  obtain ⟨a, b, e, h⟩ := engineSend_frame fs s
  rw [h]; constructor <;> rfl

theorem replyFromQueue_same (o : Origin) (q : Request) (x : PassResult) (s : State) :
    SameDay s (replyFromQueue o q x s) := by
  obtain ⟨a, b, e, h⟩ := replyFromQueue_frame o q x s
  rw [h]; constructor <;> rfl

theorem setQueue_same (p : Port) (qs : List Request) (s : State) : SameDay s (setQueue p qs s) := by
  cases p <;> constructor <;> rfl

theorem servePassRequest_acts (m : Nat) (o : Origin) (q : Request) (c : Credential) (party count : Nat)
    (labels : List Label) (e l : Option Nat) (s : State) :
    Acts m s (servePassRequest o q c party count labels e l s) := by
  have judged := judgeRequest_acts m o c party count labels e l s
  unfold servePassRequest
  split
  · next heq =>
    rw [heq] at judged
    exact judged.andSame (replyFromQueue_same ..)
  · next r t heq =>
    rw [heq] at judged
    obtain ⟨a, b, x, h⟩ := setAside_frame o q r t
    rw [h]
    exact judged.andSame (by constructor <;> rfl)

theorem serveHeldEntry_acts (m : Nat) (i : Nat) (e : HeldEntry) (s : State) : Acts m s (serveHeldEntry i e s) := by
  have start : Acts m s { s with engine := { s.engine with heldList := s.engine.heldList.eraseIdx i } } :=
    .same (by constructor <;> rfl)
  unfold serveHeldEntry
  simp only []
  split
  · next c party count labels ea la _ =>
    have judged := judgeRequest_acts m (originOf e.request.port) c party count labels ea la
      { s with engine := { s.engine with heldList := s.engine.heldList.eraseIdx i } }
    split
    · next heq =>
      rw [heq] at judged
      exact (start.trans judged).andSame (engineSend_same ..)
    · next heq =>
      rw [heq] at judged
      exact (start.trans judged).andSame (by constructor <;> rfl)
  · exact (start.trans (serveCancel_acts ..)).andSame (engineSend_same ..)
  · exact start.andSame (engineSend_same ..)

theorem sendVerdict_same (mode : ActedMode) (f : PartFrame) (s : State) : SameDay s (sendVerdict mode f s) := by
  obtain ⟨a, b, x, h⟩ := sendVerdict_frame mode f s
  rw [h]; constructor <;> rfl

theorem judgeMerge_acts (m : Nat) (c : Credential) (r : Ride) (s : State) : Acts m s (judgeMerge c r s).2 := by
  have claimed := redemptionClaim_acts m c r s
  unfold judgeMerge
  simp only []
  split <;> exact claimed.andSame (by constructor <;> rfl)

theorem judgeTap_acts (m : Nat) (rd : Reader) (c : Credential) (n time : Nat) (s : State) :
    Acts m s (judgeTap rd c n time s).2 := by
  unfold judgeTap
  split
  · exact .refl ..
  · split
    · exact .same (by constructor <;> rfl)
    · split
      · exact .same (by constructor <;> rfl)
      · split
        · obtain ⟨k, o, h⟩ := judgeStandby_frame rd.ride n time s
          rw [h]
          exact .same (by constructor <;> rfl)
        · exact judgeMerge_acts ..

theorem takeTap_acts (m : Nat) (e : FieldEntry) (i : ReaderIx) (mode : ActedMode) (c : Credential) (n : Nat) (tag : Tag)
    (s : State) : Acts m s (takeTap e i mode c n tag s) := by
  unfold takeTap
  simp only []
  split
  · exact .same (by constructor <;> rfl)
  · split
    · obtain ⟨o, o', h⟩ := observeTap_frame (look s.readers i) n (entryTime e s) s
      rw [h]
      exact .same (by constructor <;> rfl)
    all_goals exact (judgeTap_acts ..).andSame (sendVerdict_same ..)

/-! ## The day (chapter 1) -/

theorem setPhase_inDay (m : Nat) {p : Phase} {s : State} (day : inDay s.day.phase = true) (day' : inDay p = true) :
    Acts m s (setPhase p s) := by
  obtain ⟨fs, n, h'⟩ := setPhase_out p s
  obtain ⟨o, h⟩ := setPhase_frame p s
  rw [h] at h' ⊢
  refine (Act.acts (.phaseMoves p day day')).andSame ?_
  have handed := congrArg Handoffs.workItems h'
  constructor <;> first | rfl | exact handed

theorem closeDay_gone (s : State) : DayGone s (closeDay s) := by
  unfold closeDay dayCloseAction
  simp only []
  obtain ⟨a, b, e, h⟩ := closeEngine_frame (restRides (emptyTallies 0
    { emptyCalendar (setPhase .night s) with guests := [], walker := abandonWalk (emptyCalendar (setPhase .night s)).walker }))
  obtain ⟨o, h'⟩ := setPhase_frame .night s
  rw [h, h']
  constructor
  · rfl
  · rfl
  · exact .inl rfl
  · exact fun r => look_filled ..
  · exact fun r => look_filled ..
  · rfl
  · rfl
  · rfl
  · exact fun r => look_filled ..

theorem lineResetState_gone (a : Addr) (s : State) : DayGone s (lineResetState a s) := by
  constructor
  · rfl
  · rfl
  · exact .inl rfl
  · exact fun r => look_filled ..
  · exact fun r => look_filled ..
  · rfl
  · rfl
  · rfl
  · exact fun r => look_filled ..

theorem powerOnState_gone (a : Addr) (s : State) : DayGone s (powerOnState a s) := by
  constructor
  · rfl
  · rfl
  · exact .inr rfl
  · exact fun r => look_filled ..
  · exact fun r => look_filled ..
  · rfl
  · rfl
  · rfl
  · exact fun r => look_filled ..

theorem softResetState_gone (s : State) : DayGone s (softResetState s) := by
  constructor
  · rfl
  · rfl
  · exact .inl rfl
  · exact fun r => look_filled ..
  · exact fun r => look_filled ..
  · rfl
  · rfl
  · rfl
  · exact fun r => look_filled ..

theorem wrapMidnight_acts (m : Nat) (s : State) : Acts m s (wrapMidnight s) := by
  unfold wrapMidnight
  split
  · exact Act.acts (.gone (closeDay_gone s))
  · exact .refl ..

/-! ## The clock -/

theorem BoardsOnly.sameDay {s t : State} (h : BoardsOnly s t) : SameDay s t := by
  obtain ⟨⟨q, x, rfl⟩, -⟩ := h
  constructor <;> rfl

theorem runBoundary_acts {m : Nat} {s : State} (b : Boundary) (minute : ∀ q, s.day.clock = some (60 * q) → q = m) :
    Acts m s (runBoundary b s) := by
  cases b with
  | openMinute =>
    simp only [runBoundary, openMinuteReached]
    split
    · next h => exact setPhase_inDay m (by rw [h.1]; rfl) rfl
    · exact .refl ..
  | lastCall =>
    simp only [runBoundary, lastCallReached]
    split
    · next h => exact setPhase_inDay m (by rcases h.1 with e | e <;> rw [e] <;> rfl) rfl
    · exact .refl ..
  | earlyRedemption r k => exact earlyRedemption_acts r k minute
  | windowEnd r k => exact windowEnd_acts m r k s
  | closing r k => exact closingTime_acts r k minute
  | historyRotation => exact .same (by constructor <;> rfl)
  | postingTick => exact .same (by constructor <;> rfl)
  | gapExpiry r =>
    obtain ⟨x, f, c, y, b, h⟩ := gapExpiry_frame r s
    simp only [runBoundary, h]
    exact .same (by constructor <;> rfl)
  | holdExpiry =>
    obtain ⟨a, b, e, h⟩ := expireAllHeld_frame Config.heldPlaces s
    simp only [runBoundary, h]
    exact .same (by constructor <;> rfl)
  | spacingEnd x => exact .same (spacingEnd_frame x s).sameDay
  | refresh x => exact .same (refreshBoard_frame x s).sameDay

theorem takeDue_acts {m : Nat} {s : State} (b : Boundary) (minute : ∀ q, s.day.clock = some (60 * q) → q = m) :
    Acts m s (takeDue b s) := by
  rcases takeDue_cases b s with h | ⟨-, h⟩
  · rw [h]; exact .refl ..
  · rw [h]
    refine Acts.trans (.same ?_) (runBoundary_acts b minute)
    constructor <;> rfl

theorem takeDues_acts {m : Nat} {s : State} (bs : List Boundary) (minute : ∀ q, s.day.clock = some (60 * q) → q = m) :
    Acts m s (takeDues bs s) := by
  induction bs generalizing s with
  | nil => exact .refl ..
  | cons b bs ih =>
    refine (takeDue_acts b minute).trans (ih fun q h => minute q ?_)
    rwa [(takeDue_keeps b s).2] at h

theorem settle_acts {m : Nat} {s : State} (order : List Boundary) (minute : ∀ q, s.day.clock = some (60 * q) → q = m) :
    Acts m s (settle order s) := by
  refine (takeDues_acts order minute).trans (takeDues_acts _ fun q h => minute q ?_)
  rwa [(takeDues_keep order s).2] at h

theorem reachSecond_acts (m t : Nat) (s : State) : Acts m s (reachSecond t s) := by
  have counted : Acts m s (countTimers { s with day := { s.day with clock := some t } }) :=
    (Act.acts (.clockSet t)).andSame (by constructor <;> rfl)
  unfold reachSecond
  simp only []
  split
  · exact (counted.trans (wrapMidnight_acts ..)).andSame (by constructor <;> rfl)
  · exact counted.andSame (by constructor <;> rfl)

theorem tick_acts (m : Nat) (s : State) : Acts m s (tick s) := by
  unfold tick
  split
  · exact .refl ..
  · exact reachSecond_acts ..

/-- R4: the seconds of a pass bring windows to their times at one minute alone. -/
theorem passSeconds_acts {m t : Nat} (n : Nat) (orders : List (List Boundary)) {s : State} (clock : s.day.clock = some t)
    (minute : ∀ i, 1 ≤ i → i ≤ n → ∀ q, (t + i) % 86400 = 60 * q → q = m) : Acts m s (passSeconds n orders s) := by
  induction n generalizing orders s t with
  | zero => exact .refl ..
  | succ n ih =>
    have ticked := tick_clock clock
    have settled : (settle (orders.headD []) (tick s)).day.clock = some ((t + 1) % 86400) :=
      (settle_keeps ..).2.1.trans ticked
    refine ((tick_acts m s).trans (settle_acts _ fun q h => ?_)).trans (ih orders.tail settled fun i low high q h => ?_)
    · rw [ticked] at h
      exact minute 1 (le_refl 1) (by omega) q (Option.some.inj h)
    · exact minute (i + 1) (by omega) (by omega) q (by rw [← h]; omega)

/-- The minute that a clock stands at. -/
theorem minuteOfClock {s : State} : ∃ m, ∀ q, s.day.clock = some (60 * q) → q = m := by
  cases h : s.day.clock with
  | none => exact ⟨0, by simp⟩
  | some t => exact ⟨t / 60, fun q e => by cases e; omega⟩

/-- Of sixty seconds one behind another one is the first of a minute. -/
theorem minuteOfTrim (t : Nat) : ∃ m, (∀ q, t = 60 * q → q = m) ∧
    ∀ i, 1 ≤ i → i ≤ 59 → ∀ q, (t + i) % 86400 = 60 * q → q = m := by
  by_cases h : t % 60 = 0
  · exact ⟨t / 60, by omega, by omega⟩
  · exact ⟨(t + (60 - t % 60)) % 86400 / 60, by omega, by
      intro i low high q e
      have : i = 60 - t % 60 := by omega
      subst this
      omega⟩

theorem setClock_acts {m : Nat} {s : State} (t : Nat) (minute : ∀ q, s.day.clock = some (60 * q) → q = m) :
    Acts m s (setClock t s) := (settle_acts [] minute).trans (Act.acts (.clockSet t))

theorem trimClock_acts {s : State} {n : Int} (orders : List (List Boundary)) (clock : s.day.clock.isSome = true)
    (low : -59 ≤ n) (high : n ≤ 59) : ∃ m, Acts m s (trimClock n orders s) := by
  obtain ⟨t, clock⟩ := Option.isSome_iff_exists.1 clock
  obtain ⟨m, now, later⟩ := minuteOfTrim t
  have settled : Acts m s (settle [] s) := settle_acts [] fun q h => now q (by rw [clock] at h; exact Option.some.inj h)
  have clock' : (settle [] s).day.clock = some t := (settle_keeps [] s).2.1.trans clock
  refine ⟨m, ?_⟩
  unfold trimClock
  split
  · exact settled.trans (passSeconds_acts _ orders clock' fun i one last => later i one (by omega))
  · refine settled.trans ((Act.acts (.clockSet ((t + Config.daySeconds - (-n).toNat) % Config.daySeconds))).andSame ?_)
    constructor <;> first | rfl | simp [setBack, clock']

end Sys2Proof.Machine
end

section
/-! PROOFS. Chapter 12, the judgement of a TABLE_WRITE, and the management commands as acts on the day. -/

namespace Sys2Proof.Machine

/-! ## The judgement of a write (R186) -/

theorem noRepeats_iff {α : Type} [DecidableEq α] {l : List α} : noRepeats l = true ↔ l.Nodup := by
  induction l with
  | nil => simp [noRepeats]
  | cons x xs ih => simp [noRepeats, ih]

/-- R186, steps 1 to 3: the names of a write or a read are good. -/
theorem judgeNames_of {table index : Nat} {fields : List Nat} {t : TableId} {x : Entry} (named : tableOf table = some t)
    (entry : entryAt t index = some x) :
    judgeNames table index fields = if (∀ n ∈ fields, 1 ≤ n ∧ n ≤ lastField t) ∧ fields.Nodup then .ok (t, x)
      else .error .badValue := by
  simp only [judgeNames, named, entry, Bool.and_eq_true, List.all_eq_true, decide_eq_true_eq, noRepeats_iff]

theorem judgeNames_noTable {table index : Nat} {fields : List Nat} (named : tableOf table = none) :
    judgeNames table index fields = .error .badValue := by
  simp only [judgeNames, named]

theorem judgeNames_noEntry {table index : Nat} {fields : List Nat} {t : TableId} (named : tableOf table = some t)
    (entry : entryAt t index = none) : judgeNames table index fields = .error .badIndex := by
  simp only [judgeNames, named, entry]

/-- R186: a write that passes every step. -/
structure WritePasses (s : State) (t : TableId) (x : Entry) (items : List (Nat × Nat)) : Prop where
  fields : ∀ i ∈ items, 1 ≤ i.1 ∧ i.1 ≤ lastField t
  distinct : (items.map Prod.fst).Nodup
  unchecked : s.day.phase ≠ .checking
  unlocked : inDay s.day.phase = true → ∀ i ∈ items, structural t i.1 = false
  accepted : ∀ i ∈ items, accepts t i.1 i.2 = true
  sound : inDay s.day.phase = true → leavesUnsound s x items = false

theorem judgeWrite_passes {s : State} {table index : Nat} {items : List (Nat × Nat)} {t : TableId} {x : Entry}
    (named : tableOf table = some t) (entry : entryAt t index = some x) (passes : WritePasses s t x items) :
    judgeWrite s table index items = .ok x := by
  obtain ⟨fields, distinct, unchecked, unlocked, accepted, sound⟩ := passes
  have names : judgeNames table index (items.map Prod.fst) = .ok (t, x) := by
    rw [judgeNames_of named entry, if_pos ⟨by simpa using fun a b h => fields (a, b) h, distinct⟩]
  have open_ : ¬(inDay s.day.phase && items.any fun i => structural t i.1) = true := by
    rw [Bool.and_eq_true, List.any_eq_true]
    rintro ⟨day, i, here, locked⟩
    rw [unlocked day i here] at locked
    cases locked
  have taken : ¬(items.all fun i => accepts t i.1 i.2) = false := by simpa using fun a b h => accepted (a, b) h
  have leaves : ¬(inDay s.day.phase && leavesUnsound s x items) = true := by
    rw [Bool.and_eq_true]
    rintro ⟨day, unsound⟩
    rw [sound day] at unsound
    cases unsound
  simp only [judgeWrite, names, if_neg unchecked, if_neg open_, if_neg taken, if_neg leaves]

theorem judgeWrite_ok {s : State} {table index : Nat} {items : List (Nat × Nat)} {x : Entry}
    (h : judgeWrite s table index items = .ok x) :
    ∃ t, tableOf table = some t ∧ entryAt t index = some x ∧ WritePasses s t x items := by
  unfold judgeWrite at h
  split at h
  · cases h
  · next t y names =>
    split at h
    · cases h
    · next unchecked =>
      split at h
      · cases h
      · next unlocked =>
        split at h
        · cases h
        · next accepted =>
          split at h
          · cases h
          · next sound =>
            cases h
            cases named : tableOf table with
            | none => rw [judgeNames_noTable named] at names; cases names
            | some t' =>
              cases entry : entryAt t' index with
              | none => rw [judgeNames_noEntry named entry] at names; cases names
              | some x' =>
                rw [judgeNames_of named entry] at names
                split at names
                · next good =>
                  cases names
                  refine ⟨t, rfl, entry, ?_, good.2, unchecked, fun day i here => ?_, ?_, fun day => ?_⟩
                  · exact fun i here => good.1 i.1 (List.mem_map_of_mem here)
                  · rw [Bool.and_eq_true, not_and, List.any_eq_true] at unlocked
                    exact Bool.eq_false_iff.2 fun locked => unlocked day ⟨i, here, locked⟩
                  · simpa using accepted
                  · rw [Bool.and_eq_true, not_and] at sound
                    exact Bool.eq_false_iff.2 (sound day)
                · cases names

/-! ## What a write acts on -/

/-- R17: PASSES_PER_GUEST after a write is an item's value, or as before. -/
theorem writeItems_passes (items : List (Nat × Nat)) (p : ParkSettings) :
    (writeItems writePark items p).passesPerGuest = p.passesPerGuest ∨
      ∃ v, (1, v) ∈ items ∧ (writeItems writePark items p).passesPerGuest = v := by
  induction items generalizing p with
  | nil => exact .inl rfl
  | cons i is ih =>
    obtain ⟨n, v⟩ := i
    have one : (writePark p n v).passesPerGuest = p.passesPerGuest ∨ (n = 1 ∧ (writePark p n v).passesPerGuest = v) := by
      unfold writePark
      split <;> simp
    show (writeItems writePark is (writePark p n v)).passesPerGuest = _ ∨ ∃ v', _ ∧
      (writeItems writePark is (writePark p n v)).passesPerGuest = v'
    rcases ih (writePark p n v) with same | ⟨v', here, eq⟩
    · rcases one with keeps | ⟨rfl, sets⟩
      · exact .inl (same.trans keeps)
      · exact .inr ⟨v, by simp, same.trans sets⟩
    · exact .inr ⟨v', by simp [here], eq⟩

theorem inDay_or (p : Phase) : inDay p = true ∨ p = .night ∨ p = .checking := by cases p <;> simp [inDay]

theorem judgeMinutes_acts (m : Nat) {s : State} (day : inDay s.day.phase = true) :
    Acts m s (judgeLastCallMinute (judgeOpenMinute s)) := by
  have opens : Acts m s (judgeOpenMinute s) ∧ inDay (judgeOpenMinute s).day.phase = true := by
    unfold judgeOpenMinute
    split
    · refine ⟨setPhase_inDay m day rfl, ?_⟩
      obtain ⟨o, h⟩ := setPhase_frame .opened s
      rw [h]
      rfl
    · exact ⟨.refl .., day⟩
  refine opens.1.trans ?_
  unfold judgeLastCallMinute
  split
  · exact setPhase_inDay m opens.2 rfl
  · exact .refl ..

theorem takeParkWrite_acts (m : Nat) {s : State} {items : List (Nat × Nat)} (passes : WritePasses s .park .park items) :
    Acts m s (takeParkWrite items s) := by
  unfold takeParkWrite
  simp only []
  rcases inDay_or s.day.phase with day | night | checking
  · have same : SameDay s { s with day := { s.day with park := writeItems writePark items s.day.park } } := by
      have keeps : (writeItems writePark items s.day.park).passesPerGuest = s.day.park.passesPerGuest := by
        rcases writeItems_passes items s.day.park with h | ⟨v, here, -⟩
        · exact h
        · have := passes.unlocked day _ here
          simp [structural] at this
      constructor <;> first | rfl | exact keeps
    split
    · exact (Acts.same same).trans (judgeMinutes_acts m day)
    · exact .same same
  · have off : inDay s.day.phase = false := by rw [night]; rfl
    rw [off, Bool.false_and, if_neg (by decide)]
    rcases writeItems_passes items s.day.park with h | ⟨v, here, h⟩
    · refine .same ?_
      constructor <;> first | rfl | exact h
    · have := passes.accepted _ here
      simp only [accepts, parkAccepts, decide_eq_true_eq] at this
      refine (Act.acts (.passesSet v night this.1)).andSame ?_
      constructor <;> first | rfl | exact h
  · exact absurd checking passes.unchecked

theorem takeRideWrite_same (r : Ride) (items : List (Nat × Nat)) (order : List BoardIx) (s : State) :
    SameDay s (takeRideWrite r items order s) := by
  have moved : ∀ e : RideEntry, SameDay s
      (moveRide r (rideEntry s r) e { s with rideTable := put s.rideTable r e }) := by
    intro e
    unfold moveRide
    split <;> constructor <;> rfl
  unfold takeRideWrite
  simp only []
  split
  · exact (moved _).trans (boardsChanged_frame ..).sameDay
  · exact moved _

theorem takeWrite_acts (m : Nat) {s : State} {t : TableId} {x : Entry} {items : List (Nat × Nat)} (order : List BoardIx)
    {index : Nat} (entry : entryAt t index = some x) (passes : WritePasses s t x items) :
    Acts m s (takeWrite x items order s) := by
  cases x with
  | park =>
    obtain rfl : t = .park := by (cases t <;> simp [entryAt] at entry); rfl
    exact takeParkWrite_acts m passes
  | profile i => exact .same (by constructor <;> rfl)
  | ride r => exact .same (takeRideWrite_same ..)
  | reader i => exact .same (by constructor <;> rfl)
  | board b =>
    refine Acts.trans (.same ?_) (.same (boardWritten_frame ..).sameDay)
    constructor <;> rfl

theorem tableWrite_acts (m table index : Nat) (items : List (Nat × Nat)) (order : List BoardIx) (s : State) :
    Acts m s (tableWrite table index items order s).2 := by
  unfold tableWrite
  split
  · exact .refl ..
  · next judged =>
    obtain ⟨t, -, entry, passes⟩ := judgeWrite_ok judged
    exact takeWrite_acts m order entry passes

/-! ## The reads change nothing -/

theorem statusRead_snd (sect index : Nat) (s : State) : (statusRead sect index s).2 = s := by
  unfold statusRead
  split
  · rfl
  · split <;> rfl
  · split <;> rfl
  · rfl

theorem statusOf_snd {own sect index : Nat} {s u : State} {a : Answer} (h : statusOf own sect index s = some (a, u)) :
    u = s := by
  unfold statusOf at h
  split at h
  · have := statusRead_snd sect index s
    rw [Option.some.inj h] at this
    exact this
  · cases h

theorem tableRead_snd (table index : Nat) (fields : List Nat) (s : State) : (tableRead table index fields s).2 = s := by
  unfold tableRead
  split <;> rfl

theorem countsRead_snd (first count : Nat) (s : State) : (countsRead first count s).2 = s := by
  unfold countsRead
  split
  · rfl
  · split <;> rfl

theorem calendarRead_snd (ride first count : Nat) (s : State) : (calendarRead ride first count s).2 = s := by
  unfold calendarRead
  split
  · rfl
  · split
    · rfl
    · split
      · rfl
      · split <;> rfl

theorem guestReadExact_snd (c : Credential) (s : State) : (guestReadExact c s).2 = s := by
  unfold guestReadExact
  split
  · split <;> rfl
  · rfl

theorem guestReadNext_snd (c : Credential) (s : State) : (guestReadNext c s).2 = s := by
  unfold guestReadNext
  split <;> rfl

/-! ## The other management commands -/

theorem noticeSet_same (flags : BitVec 16) (target : Addr) (s : State) : SameDay s (noticeSet flags target s).2 := by
  unfold noticeSet
  split <;> constructor <;> rfl

theorem noticeClear_same (flags : BitVec 16) (s : State) : SameDay s (noticeClear flags s).2 := by
  unfold noticeClear
  split <;> constructor <;> rfl

theorem dayOpen_acts (m : Nat) (s : State) : Acts m s (dayOpen s).2 := by
  unfold dayOpen
  split
  · exact .refl ..
  · next night =>
    split
    · exact .refl ..
    · next clock =>
      have night : s.day.phase = .night := by simpa using night
      refine (Act.acts (.checkBegins night (Option.isSome_iff_ne_none.2 clock))).andSame ?_
      obtain ⟨fs, n, h'⟩ := setPhase_out .checking s
      obtain ⟨o, h⟩ := setPhase_frame .checking s
      rw [h] at h'
      have handed := congrArg Handoffs.workItems h'
      simp only [answered, h]
      constructor <;> first | rfl | exact handed

theorem phaseSet_acts (m code : Nat) (s : State) : Acts m s (phaseSet code s).2 := by
  unfold phaseSet
  split
  · exact .refl ..
  · next p _ =>
    split
    · exact .refl ..
    · next day =>
      split
      · exact .refl ..
      · next later =>
        have day : inDay s.day.phase = true := by simpa using day
        have day' : inDay p = true := by
          revert day later
          cases s.day.phase <;> cases p <;> simp [inDay, phaseCode]
        exact setPhase_inDay m day day'

/-- R10, R14: a check in progress ends in NIGHT. -/
theorem setPhase_night_acts (m : Nat) {s t : State} (checking : s.day.phase = .checking) (same : SameDay s t) :
    Acts m s (setPhase .night t) := by
  obtain ⟨fs, n, h'⟩ := setPhase_out .night t
  obtain ⟨o, h⟩ := setPhase_frame .night t
  rw [h] at h' ⊢
  have handed := congrArg Handoffs.workItems h'
  refine (Act.acts (.checkEnds checking)).andSame ?_
  constructor
  · exact same.pending
  · rfl
  · exact same.clock
  · exact same.passes
  · exact same.windows
  · exact same.flex
  · exact same.guests
  · exact same.workList
  · exact same.item
  · exact same.displacing
  · exact handed.trans same.handed

theorem dayClose_acts (m : Nat) (s : State) : Acts m s (dayClose s).2 := by
  unfold dayClose
  split
  · exact .refl ..
  · next checking => exact setPhase_night_acts m checking (by constructor <;> rfl)
  all_goals exact Act.acts (.gone (closeDay_gone s))

theorem clockSet_acts {m : Nat} {s : State} (h mi se : Nat) (minute : ∀ q, s.day.clock = some (60 * q) → q = m) :
    Acts m s (clockSet h mi se s).2 := by
  unfold clockSet
  split
  · exact .refl ..
  · split
    · exact .refl ..
    · split
      · exact .refl ..
      · exact setClock_acts _ minute

theorem clockTrim_acts (n : Int) (orders : List (List Boundary)) (s : State) : ∃ m, Acts m s (clockTrim n orders s).2 := by
  unfold clockTrim
  split
  · exact ⟨0, .refl ..⟩
  · next range =>
    split
    · exact ⟨0, .refl ..⟩
    · split
      · exact ⟨0, .refl ..⟩
      · next clock => exact trimClock_acts orders (Option.isSome_iff_ne_none.2 clock) (by omega) (by omega)

theorem rideOverride_same (ride state : Nat) (s : State) : SameDay s (rideOverride ride state s).2 := by
  unfold rideOverride
  split
  · exact .refl s
  · next r _ =>
    split
    · exact .refl s
    · next st _ =>
      split
      · exact .refl s
      · split
        · exact .refl s
        · split
          · exact .refl s
          · obtain ⟨x, f, c, y, b, h⟩ := reportState_out r st s
            simp only [answered, h]
            constructor <;> rfl

theorem boardMode_same (board mode : Nat) (s : State) : SameDay s (boardMode board mode s).2 := by
  unfold boardMode
  split
  · exact .refl s
  · split
    · exact .refl s
    · split
      · exact .refl s
      · split
        · exact .refl s
        · exact (changeMode_frame ..).sameDay

theorem passRevoke_acts (m ride : Nat) (c : Credential) (s : State) : Acts m s (passRevoke ride c s).2 := by
  unfold passRevoke
  split
  · exact .refl ..
  · split
    · exact .refl ..
    · split
      · exact .refl ..
      · split
        · exact .refl ..
        · split
          · exact .refl ..
          · next removed => exact (removalClaim_acts m removed).andSame (by constructor <;> rfl)

theorem mgmtFinish_same (fs : List (Port × PartFrame)) (s : State) : SameDay s (mgmtFinish fs s) := by
  obtain ⟨a, b, h, e, eq⟩ := mgmtFinish_frame fs s
  rw [eq]; constructor <;> rfl

/-- A serve acts as its command does. -/
theorem serve_acts {m code : Nat} {f : MgmtCommand → State → Option (Answer × State)} {s : State}
    (acts : ∀ c rest a u, f c { s with mgmtIntake := rest } = some (a, u) → Acts m { s with mgmtIntake := rest } u) :
    Acts m s (serve code f s) := by
  rcases serve_cases code f s with h | ⟨e, rest, a, u, -, -, found, h⟩
  · rw [h]; exact .refl ..
  · rw [h]
    refine Acts.trans (.same ?_) ((acts _ rest a u found).andSame (mgmtFinish_same ..))
    constructor <;> rfl

/-- A serve of a trim acts at one minute. -/
theorem serveTrim_acts (code : Nat) (orders : List (List Boundary)) (s : State) :
    ∃ m, Acts m s (serve code (fun c s => match c with
      | .clockTrim seconds => some (clockTrim seconds orders s)
      | _ => none) s) := by
  rcases serve_cases code (fun c s => match c with
      | .clockTrim seconds => some (clockTrim seconds orders s)
      | _ => none) s with h | ⟨e, rest, a, u, -, -, found, h⟩
  · rw [h]; exact ⟨0, .refl ..⟩
  · rw [h]
    split at found
    · next n _ =>
      obtain ⟨m, acts⟩ := clockTrim_acts n orders { s with mgmtIntake := rest }
      rw [Option.some.inj found] at acts
      refine ⟨m, Acts.trans (.same ?_) (acts.andSame (mgmtFinish_same ..))⟩
      constructor <;> rfl
    · cases found

end Sys2Proof.Machine
end

section
/-! PROOFS. Every command as a chain of acts on the day. -/

namespace Sys2Proof.Machine

/-! ## What an event acts on -/

theorem event_acts {m : Nat} {f : State → State} {s t : State} (acts : Acts m s (f s)) (h : event f s = .next t) :
    Acts m s t := by
  rcases event_cases h with rfl | ⟨-, rfl⟩
  · exact .refl ..
  · exact acts

theorem event_same {f : State → State} {s t : State} (same : SameDay s (f s)) (h : event f s = .next t) :
    ∃ m, Acts m s t := ⟨0, event_acts (.same same) h⟩

/-! ## The ports -/

theorem setPort_same (s : State) (p : Port) (ps : PortState) : SameDay s (setPort s p ps) := by
  cases p <;> constructor <;> rfl

theorem receiveFrame_same (p : Port) (f : RxFrame) (s : State) : SameDay s (receiveFrame p f s) := by
  obtain ⟨a, b, x, h⟩ := receiveFrame_frame p f s
  rw [h]; constructor <;> rfl

theorem classify_same (p : Port) (s : State) : SameDay s (classify p s) := by
  unfold classify
  simp only []
  split
  · exact .refl s
  · split
    · exact .refl s
    · next f rest _ =>
      obtain ⟨a, b, q, q', e, x, h⟩ := sortFrame_frame p f (setPort s p { portOf s p with receiveBuffer := rest })
      refine (setPort_same s p { portOf s p with receiveBuffer := rest }).trans ?_
      rw [h]; constructor <;> rfl

theorem startTransmission_same (p : Port) (s : State) : SameDay s (startTransmission p s) := by
  unfold startTransmission noteReplySending
  simp only []
  split
  · split
    · exact .refl s
    · split
      · exact .refl s
      · exact setPort_same ..
    · split
      · exact .refl s
      · split
        · exact (setPort_same ..).trans (by constructor <;> rfl)
        · exact setPort_same ..
  · exact .refl s

theorem endTransmission_same (p : Port) (s : State) : SameDay s (endTransmission p s) := by
  unfold endTransmission
  simp only []
  split
  · exact (setPort_same ..).trans (by constructor <;> rfl)
  · exact setPort_same ..

theorem writeFull_same (p : Port) (f : PartFrame) (s : State) : SameDay s (writeFull p f s) := by
  obtain ⟨a, b, e, h⟩ := writeFull_frame p f s
  rw [h]; constructor <;> rfl

theorem resume_same (w : Producer) (box : List (Port × PartFrame)) (s : State) : SameDay s (resume w box s).1 := by
  obtain ⟨a, b, h⟩ := resume_frame w box s
  rw [h]; constructor <;> rfl

theorem mgmtResume_same (reply : Bool) (s : State) : SameDay s (mgmtResume reply s) := by
  unfold mgmtResume
  split
  · exact .refl s
  · simp only []
    split
    · refine ((resume_same .management s.management.outbox s).trans ?_).trans (mgmtFinish_same ..)
      constructor <;> rfl
    · exact .refl s

theorem takeFlag_same (f : Flag) (s : State) : SameDay s (takeFlag f s) := by
  unfold takeFlag
  split
  · exact SameDay.trans (by constructor <;> rfl) (mgmtFinish_same ..)
  · exact .refl s

/-! ## The opening check -/

/-- R10: what a passed check makes of the day. -/
structure DayOpened (s t : State) : Prop where
  pending : t.pending = s.pending
  checking : s.day.phase = .checking
  phase : inDay t.day.phase = true
  clock : t.day.clock = s.day.clock
  passes : t.day.park.passesPerGuest = s.day.park.passesPerGuest
  guests : t.guests = s.guests
  workList : t.walker.workList = s.walker.workList
  item : t.walker.item = s.walker.item
  displacing : t.walker.displacing = s.walker.displacing
  handed : t.out.workItems = []
  windows : ∀ r, ∀ w ∈ look t.calendar.windows r, w.holders = [] ∧ w.accountsHold
  flex : ∀ r, look t.calendar.flex r = []

theorem openingPhase_inDay (p : ParkSettings) (minute : Nat) : inDay (openingPhase p minute) = true := by
  unfold openingPhase
  split
  · rfl
  · split <;> rfl

theorem mem_buildRide {s : State} {now : Nat} {r : Ride} {w : Window} (h : w ∈ buildRide s now r) :
    w.holders = [] ∧ w.accountsHold := by
  unfold buildRide at h
  simp only [] at h
  split at h
  · obtain ⟨k, -, rfl⟩ := List.mem_map.1 h
    exact ⟨rfl, by constructor <;> rfl⟩
  · cases h

theorem completeCheck_passes {s : State} (checking : s.day.phase = .checking) (noFault : checkFaults s = []) :
    DayOpened s (completeCheck s) := by
  unfold completeCheck
  simp only [noFault, List.isEmpty_nil, if_true]
  generalize start : raise Flag.checkDone { s with day := { s.day with check := checkRecord [] } } = u
  obtain ⟨fs, n, h'⟩ := setPhase_out (openingPhase (setUpDay u).day.park (minuteNow (setUpDay u))) (setUpDay u)
  obtain ⟨o, h⟩ := setPhase_frame (openingPhase (setUpDay u).day.park (minuteNow (setUpDay u))) (setUpDay u)
  rw [h] at h' ⊢
  subst start
  constructor
  case checking => exact checking
  case phase => exact openingPhase_inDay ..
  case handed => exact congrArg Handoffs.workItems h'
  case windows =>
    intro r w hw
    have built := look_tabulate (buildRide _ _) r ▸ hw
    exact mem_buildRide built
  case flex => exact fun r => look_filled ..
  all_goals rfl

theorem completeCheck_fails (m : Nat) {s : State} (checking : s.day.phase = .checking) (fault : checkFaults s ≠ []) :
    Acts m s (completeCheck s) := by
  unfold completeCheck
  have some : (checkFaults s).isEmpty = false := by simpa using fault
  simp only [some, Bool.false_eq_true, if_false]
  exact setPhase_night_acts m checking (by constructor <;> rfl)

/-! ## Every command -/

/-- Every command is a chain of acts on the day at one minute, but the completion of a passed check. -/
theorem exec_acts {c : Instr} {s t : State} (h : exec c s = .next t) :
    (∃ m, Acts m s t) ∨ (c = .checkComplete ∧ DayOpened s t) := by
  cases c
  case checkComplete =>
    change execCheckComplete s = _ at h
    rcases event_cases h with rfl | ⟨-, rfl⟩
    · exact .inl ⟨0, .refl ..⟩
    · split
      · next checking =>
        by_cases noFault : checkFaults s = []
        · exact .inr ⟨rfl, completeCheck_passes checking noFault⟩
        · exact .inl ⟨0, completeCheck_fails 0 checking noFault⟩
      · exact .inl ⟨0, .refl ..⟩
  all_goals left
  case powerOn a => cases h; exact ⟨0, Act.acts (.gone (powerOnState_gone a s))⟩
  case lineReset a => cases h; exact ⟨0, Act.acts (.gone (lineResetState_gone a s))⟩
  case resetNAsserted =>
    cases h
    refine ⟨0, (Act.acts (.gone (lineResetState_gone s.nodeAddress s))).andSame ?_⟩
    constructor <;> rfl
  case linkStateChange p up => cases h; exact ⟨0, .same (setPort_same ..)⟩
  case frameReceived p f => exact event_same (receiveFrame_same p f s) h
  case classifyFrame p => exact event_same (classify_same p s) h
  case queueFullWrite p =>
    change execQueueFullWrite p s = _ at h
    refine event_same ?_ h
    split
    · exact .refl s
    · split
      · exact writeFull_same ..
      · exact .refl s
  case transmissionStart p => exact event_same (startTransmission_same p s) h
  case transmissionEnd p =>
    refine event_same ?_ h
    split
    · exact endTransmission_same p s
    · exact .refl s
  case clockAdvance =>
    obtain ⟨m, minute⟩ := minuteOfClock (s := s)
    refine ⟨m, event_acts ?_ h⟩
    split
    · exact (settle_acts [] minute).trans (tick_acts m _)
    · exact .refl ..
  case midnightWrap =>
    obtain ⟨m, minute⟩ := minuteOfClock (s := s)
    refine ⟨m, event_acts ?_ h⟩
    split
    · exact (settle_acts [] minute).trans (tick_acts m _)
    · exact .refl ..
  case openMinuteBoundary | lastCallBoundary | earlyRedemptionTime | windowEnd | closingTime | postingTick
      | dispatchHistoryRotation | gapTimerExpiry | boardSpacingEnd | boardRefresh =>
    obtain ⟨m, minute⟩ := minuteOfClock (s := s)
    exact ⟨m, event_acts (takeDue_acts _ minute) h⟩
  case holdExpiry =>
    change execHoldExpiry s = _ at h
    refine event_same ?_ h
    split
    · exact .refl s
    · obtain ⟨a, b, e, eq⟩ := expireHeld_frame s
      rw [eq]; constructor <;> rfl
  case statusReadPart | statusReadRide | statusReadBoard =>
    refine ⟨0, event_acts (serve_acts fun c rest a u found => ?_) h⟩
    split at found
    · rw [statusOf_snd found]; exact .refl ..
    · cases found
  case tableRead =>
    refine ⟨0, event_acts (serve_acts fun c rest a u found => ?_) h⟩
    split at found
    · obtain rfl := (congrArg Prod.snd (Option.some.inj found)).symm
      rw [tableRead_snd]; exact .refl ..
    · cases found
  case countsRead =>
    refine ⟨0, event_acts (serve_acts fun c rest a u found => ?_) h⟩
    split at found
    · obtain rfl := (congrArg Prod.snd (Option.some.inj found)).symm
      rw [countsRead_snd]; exact .refl ..
    · cases found
  case calendarRead =>
    refine ⟨0, event_acts (serve_acts fun c rest a u found => ?_) h⟩
    split at found
    · obtain rfl := (congrArg Prod.snd (Option.some.inj found)).symm
      rw [calendarRead_snd]; exact .refl ..
    · cases found
  case guestReadExact =>
    refine ⟨0, event_acts (serve_acts fun c rest a u found => ?_) h⟩
    split at found
    · split at found
      · obtain rfl := (congrArg Prod.snd (Option.some.inj found)).symm
        rw [guestReadExact_snd]; exact .refl ..
      · split at found
        · cases found
        · obtain rfl := (congrArg Prod.snd (Option.some.inj found)).symm
          exact .refl ..
    · cases found
  case guestReadNext =>
    refine ⟨0, event_acts (serve_acts fun c rest a u found => ?_) h⟩
    split at found
    · split at found
      · obtain rfl := (congrArg Prod.snd (Option.some.inj found)).symm
        rw [guestReadNext_snd]; exact .refl ..
      · split at found
        · cases found
        · obtain rfl := (congrArg Prod.snd (Option.some.inj found)).symm
          exact .refl ..
    · cases found
  case tableWrite order =>
    refine ⟨0, event_acts (serve_acts fun c rest a u found => ?_) h⟩
    split at found
    · obtain rfl := (congrArg Prod.snd (Option.some.inj found)).symm
      exact tableWrite_acts ..
    · cases found
  case dayOpen =>
    refine ⟨0, event_acts (serve_acts fun c rest a u found => ?_) h⟩
    split at found
    · obtain rfl := (congrArg Prod.snd (Option.some.inj found)).symm
      exact dayOpen_acts ..
    · cases found
  case phaseSet =>
    refine ⟨0, event_acts (serve_acts fun c rest a u found => ?_) h⟩
    split at found
    · obtain rfl := (congrArg Prod.snd (Option.some.inj found)).symm
      exact phaseSet_acts ..
    · cases found
  case dayClose =>
    refine ⟨0, event_acts (serve_acts fun c rest a u found => ?_) h⟩
    split at found
    · obtain rfl := (congrArg Prod.snd (Option.some.inj found)).symm
      exact dayClose_acts ..
    · cases found
  case clockSet =>
    obtain ⟨m, minute⟩ := minuteOfClock (s := s)
    refine ⟨m, event_acts (serve_acts fun c rest a u found => ?_) h⟩
    split at found
    · obtain rfl := (congrArg Prod.snd (Option.some.inj found)).symm
      exact clockSet_acts _ _ _ minute
    · cases found
  case clockTrim orders =>
    obtain ⟨m, acts⟩ := serveTrim_acts 0x08 orders s
    exact ⟨m, event_acts acts h⟩
  case rideOverride =>
    refine ⟨0, event_acts (serve_acts fun c rest a u found => ?_) h⟩
    split at found
    · obtain rfl := (congrArg Prod.snd (Option.some.inj found)).symm
      exact .same (rideOverride_same ..)
    · cases found
  case boardMode =>
    refine ⟨0, event_acts (serve_acts fun c rest a u found => ?_) h⟩
    split at found
    · obtain rfl := (congrArg Prod.snd (Option.some.inj found)).symm
      exact .same (boardMode_same ..)
    · cases found
  case noticeSet =>
    refine ⟨0, event_acts (serve_acts fun c rest a u found => ?_) h⟩
    split at found
    · obtain rfl := (congrArg Prod.snd (Option.some.inj found)).symm
      exact .same (noticeSet_same ..)
    · cases found
  case noticeClear =>
    refine ⟨0, event_acts (serve_acts fun c rest a u found => ?_) h⟩
    split at found
    · obtain rfl := (congrArg Prod.snd (Option.some.inj found)).symm
      exact .same (noticeClear_same ..)
    · cases found
  case passRevoke =>
    refine ⟨0, event_acts (serve_acts fun c rest a u found => ?_) h⟩
    split at found
    · obtain rfl := (congrArg Prod.snd (Option.some.inj found)).symm
      exact passRevoke_acts ..
    · cases found
  case softReset =>
    refine ⟨0, event_acts (serve_acts fun c rest a u found => ?_) h⟩
    split at found
    · obtain rfl := (congrArg Prod.snd (Option.some.inj found)).symm
      exact .same (by constructor <;> rfl)
    · cases found
  case softResetAction =>
    refine ⟨0, event_acts ?_ h⟩
    split
    · exact Act.acts (.gone (softResetState_gone s))
    · exact .refl ..
  case mgmtReplyWrite => exact event_same (mgmtResume_same ..) h
  case noticeWrite => exact event_same (mgmtResume_same ..) h
  case noticeFlagSet f => exact event_same (takeFlag_same ..) h
  case tap =>
    change execTap s = _ at h
    refine ⟨0, event_acts ?_ h⟩
    split
    · next e u delivered =>
      obtain ⟨rest, -, rfl⟩ := deliver_eq_some delivered
      split
      · exact Acts.trans (.same (by constructor <;> rfl)) (takeTap_acts ..)
      · exact .refl ..
    · exact .refl ..
  case verdictWrite =>
    refine event_same ?_ h
    split
    · exact (resume_same ..).trans (by constructor <;> rfl)
    · exact .refl s
  case dispatch =>
    change execDispatch s = _ at h
    refine event_same ?_ h
    split
    · next e u delivered =>
      obtain ⟨rest, -, rfl⟩ := deliver_eq_some delivered
      split
      · next n _ =>
        obtain ⟨x, m, d, rc, f, c, y, b, eq⟩ := takeDispatchMessage_frame e n { s with fieldIntake := rest }
        rw [eq]; constructor <;> rfl
      · exact .refl s
    · exact .refl s
  case rideStatus =>
    change execRideStatus s = _ at h
    refine event_same ?_ h
    split
    · next e u delivered =>
      obtain ⟨rest, -, rfl⟩ := deliver_eq_some delivered
      split
      · next code _ =>
        obtain ⟨x, f, c, y, b, eq⟩ := takeRideStatus_frame e code { s with fieldIntake := rest }
        rw [eq]; constructor <;> rfl
      · exact .refl s
    · exact .refl s
  case creditAddition r =>
    change execCreditAddition r s = _ at h
    refine event_same ?_ h
    split
    · exact .refl s
    · next x rest _ =>
      obtain ⟨y, eq⟩ := takeCredit_frame x.1 x.2 { s with out := { s.out with credits := rest } }
      rw [eq]; constructor <;> rfl
  case standbyHandoff position =>
    change execStandbyHandoff position s = _ at h
    refine event_same ?_ h
    split
    · exact .refl s
    · next x _ =>
      obtain ⟨a, b, eq⟩ := takeStandby_frame x { s with out := { s.out with standbys := s.out.standbys.eraseIdx position } }
      rw [eq]; constructor <;> rfl
  case dispatchHandoff r =>
    change execDispatchHandoff r s = _ at h
    refine event_same ?_ h
    split
    · exact .refl s
    · next x rest _ =>
      obtain ⟨y, m, eq⟩ := takeDispatch_frame x { s with out := { s.out with dispatches := rest } }
      rw [eq]; constructor <;> rfl
  case dispatchRecord r =>
    change execDispatchRecord r s = _ at h
    refine event_same ?_ h
    split
    · exact .refl s
    · next x rest _ =>
      obtain ⟨y, eq⟩ := takeRecord_frame x { s with out := { s.out with records := rest } }
      rw [eq]; constructor <;> rfl
  case evaluation r =>
    change execEvaluation r s = _ at h
    refine event_same ?_ h
    split
    · exact .refl s
    · next x rest _ =>
      obtain ⟨a, b, c, d, eq⟩ := takeEvaluation_frame x { s with out := { s.out with evaluations := rest } }
      rw [eq]; constructor <;> rfl
  case recomputation r =>
    change execRecomputation r s = _ at h
    refine ⟨0, event_acts ?_ h⟩
    split
    · exact .refl ..
    · exact Acts.trans (.same (by constructor <;> rfl)) (takeRecomputation_acts ..)
  case calendarStateHandoff r =>
    change execCalendarStateHandoff r s = _ at h
    refine ⟨0, event_acts ?_ h⟩
    split
    · exact .refl ..
    · exact Acts.trans (.same (by constructor <;> rfl)) (takeCalendarState_acts ..)
  case tallyStateHandoff r =>
    change execTallyStateHandoff r s = _ at h
    refine event_same ?_ h
    split
    · exact .refl s
    · next x rest _ =>
      obtain ⟨a, b, eq⟩ := takeTallyState_frame x.1 x.2 { s with out := { s.out with tallyStates := rest } }
      rw [eq]; constructor <;> rfl
  case boardStateHandoff r order =>
    change execBoardStateHandoff r order s = _ at h
    refine event_same ?_ h
    split
    · exact .refl s
    · next x rest _ =>
      obtain ⟨v, only⟩ := takeBoardState_frame r order { s with out := { s.out with boardStates := rest } }
      exact SameDay.trans (by constructor <;> rfl) only.sameDay
  case postedValueHandoff r order =>
    change execPostedValueHandoff r order s = _ at h
    refine event_same ?_ h
    split
    · exact .refl s
    · next x rest _ =>
      obtain ⟨v, only⟩ := setHeld_frame r x.2 order { s with out := { s.out with posted := rest } }
      exact SameDay.trans (by constructor <;> rfl) only.sameDay
  case workItemHandoff r k =>
    change execWorkItemHandoff r k s = _ at h
    refine ⟨0, event_acts ?_ h⟩
    split
    · exact .refl ..
    · next is rest found =>
      obtain ⟨before, after, split, -, -, rfl⟩ := takeFirst_eq_some.1 found
      exact takeWorkItems_acts 0 split
  case displaceStep =>
    change execDisplaceStep s = _ at h
    refine ⟨0, event_acts ?_ h⟩
    split
    · next i _ item =>
      split
      · exact displaceStep_acts 0 item
      · exact .refl ..
    · exact .refl ..
  case expireStep =>
    change execExpireStep s = _ at h
    refine ⟨0, event_acts ?_ h⟩
    split
    · next i _ item =>
      split
      · exact expireStep_acts 0 item
      · exact .refl ..
    · exact .refl ..
  case passChangeWrite =>
    change execPassChangeWrite s = _ at h
    refine ⟨0, event_acts ?_ h⟩
    split
    · exact .refl ..
    · split
      · exact writeChange_acts ..
      · exact .refl ..
  case endOfDisplacement r =>
    change execEndOfDisplacement r s = _ at h
    refine event_same ?_ h
    split
    · exact .refl s
    · split
      · exact .refl s
      · constructor <;> rfl
  case lastCallRelease =>
    change execLastCallRelease s = _ at h
    refine event_same ?_ h
    split
    · exact .refl s
    · constructor <;> rfl
  case passRequest =>
    change execPassRequest s = _ at h
    refine ⟨0, event_acts ?_ h⟩
    split
    · split
      · exact Acts.trans (.same (setQueue_same ..)) (servePassRequest_acts ..)
      · exact .refl ..
    · exact .refl ..
  case heldServe =>
    change execHeldServe s = _ at h
    refine ⟨0, event_acts ?_ h⟩
    split
    · exact .refl ..
    · split
      · exact .refl ..
      · exact serveHeldEntry_acts ..
  case passCancel =>
    change execPassCancel s = _ at h
    refine ⟨0, event_acts ?_ h⟩
    split
    · split
      · exact (Acts.trans (.same (setQueue_same ..)) (serveCancel_acts ..)).andSame (replyFromQueue_same ..)
      · exact .refl ..
    · exact .refl ..
  case passList =>
    change execPassList s = _ at h
    refine event_same ?_ h
    split
    · split
      · exact (setQueue_same ..).trans (replyFromQueue_same ..)
      · exact .refl s
    · exact .refl s
  case passReplyWrite =>
    refine event_same ?_ h
    split
    · simp only []
      obtain ⟨a, b, e, eq⟩ := expireAllHeld_frame Config.heldPlaces
        { (resume .passEngine s.engine.outbox s).1 with
          engine := { (resume .passEngine s.engine.outbox s).1.engine with
            outbox := (resume .passEngine s.engine.outbox s).2 } }
      rw [eq]
      refine (resume_same .passEngine s.engine.outbox s).trans ?_
      constructor <;> rfl
    · exact .refl s

end Sys2Proof.Machine
end

section
/-! PROOFS. What every step keeps, for the accounts of a window (O53), the empty night (O54) and the states of a window (O58). -/

namespace Sys2Proof.Machine

/-! ## A step -/

/-- What every act on the day and the completion of a passed check keep, and what does not depend on the queue, every step
keeps. -/
theorem step_keeps {P : State → Prop} (queue : ∀ s cs, P s → P (s.withPending cs))
    (act : ∀ m s t, P s → Act m s t → P t) (opened : ∀ s t, P s → DayOpened s t → P t) {s t : State} (p : P s)
    (h : step s = .next t) : P t := by
  unfold step at h
  split at h
  · cases h; exact p
  · next c rest _ =>
    rcases exec_acts h with ⟨m, acts⟩ | ⟨-, opens⟩
    · exact acts.keep (act m) (queue s rest p)
    · exact opened _ _ (queue s rest p) opens

/-! ## What an act makes of a window -/

/-- What an act makes of a window. -/
inductive WindowChange (m : Nat) (w : Window) : Window → Prop
  | same {w'} : SameUse w w' → WindowChange m w w'
  | opens : w.state = .future → m ≤ w.start → WindowChange m w { w with state := .redeemable }
  | moves (kind : WorkKind) : mayMove m kind w → WindowChange m w { w with state := kind.needs }
  | placed (h : Holder) : w.state = .future → WindowChange m w (placeIn h w)
  | movedOut {h : Holder} {rest : List Holder} : w.holders = h :: rest → WindowChange m w (moveOut h rest w)
  | left {h : Holder} {w'} : holderIn h.credential w.holders = some h → HolderLeft h w w' → WindowChange m w w'

/-- A window put in its place: the new one there, the others as before. -/
theorem windowOf_putWindow {r q : Ride} {k j : Nat} {w u v : Window} {s : State} (window : windowOf s r k = some u)
    (h : windowOf (putWindow r k w s) q j = some v) :
    (r = q ∧ k = j ∧ v = w) ∨ (¬(r = q ∧ k = j) ∧ windowOf s q j = some v) := by
  by_cases here : r = q ∧ k = j
  · obtain ⟨rfl, rfl⟩ := here
    rw [windowOf_putWindow_same w window] at h
    exact .inl ⟨rfl, rfl, (Option.some.inj h).symm⟩
  · rw [windowOf_putWindow_other w s here] at h
    exact .inr ⟨here, h⟩

/-- The windows of `t` stood in `s` but for one, which a change gave. -/
theorem windowChange_putWindow {m : Nat} {r q : Ride} {k j : Nat} {w u v : Window} {s : State}
    (window : windowOf s r k = some u) (change : WindowChange m u w) (h : windowOf (putWindow r k w s) q j = some v) :
    ∃ w, windowOf s q j = some w ∧ WindowChange m w v := by
  rcases windowOf_putWindow window h with ⟨rfl, rfl, rfl⟩ | ⟨-, old⟩
  · exact ⟨u, window, change⟩
  · exact ⟨v, old, .same (.refl v)⟩

theorem moveWindows_frame (r : Ride) (kind : WorkKind) (sel : Nat → Window → Bool) (s : State) :
    ∃ o, moveWindows r kind sel s =
      { changeWindows r (movedStates kind sel) s with out := { s.out with workItems := o } } := by
  obtain ⟨o, h⟩ := handItems_frame (movedItems r kind sel (look s.calendar.windows r)) (changeWindows r (movedStates kind sel) s)
  exact ⟨o, h⟩

theorem windowOf_moveWindows (r q : Ride) (k : Nat) (kind : WorkKind) (sel : Nat → Window → Bool) (s : State) :
    windowOf (moveWindows r kind sel s) q k =
      if r = q then (windowOf s q k).map fun w => if sel k w then { w with state := kind.needs } else w
      else windowOf s q k := by
  obtain ⟨o, h⟩ := moveWindows_frame r kind sel s
  have windows : windowOf (moveWindows r kind sel s) q k = windowOf (changeWindows r (movedStates kind sel) s) q k := by
    rw [h]; rfl
  rw [windows, windowOf_changeWindows]
  split
  · next same => subst same; exact List.getElem?_mapIdx
  · rfl

/-- Every window after an act stood before it, and the act changed it in one of a few ways. -/
theorem Act.window {m : Nat} {s t : State} (act : Act m s t) {r : Ride} {k : Nat} {w' : Window}
    (h : windowOf t r k = some w') : ∃ w, windowOf s r k = some w ∧ WindowChange m w w' := by
  have stays (h : windowOf s r k = some w') : ∃ w, windowOf s r k = some w ∧ WindowChange m w w' :=
    ⟨w', h, .same (.refl w')⟩
  cases act with
  | same same => exact stays (same.windowOf r k ▸ h)
  | gone gone =>
    rw [windowOf, gone.windows] at h
    cases h
  | windowsTouched q f touched =>
    rw [windowOf_changeWindows] at h
    split at h
    · next same =>
      subst same
      obtain ⟨inside, eq⟩ := List.getElem?_eq_some_iff.1 h
      have inside' : k < (look s.calendar.windows q).length := touched.length_eq ▸ inside
      refine ⟨_, List.getElem?_eq_getElem inside', .same ?_⟩
      have use := List.Forall₂.get touched inside' inside
      rwa [List.get_eq_getElem, List.get_eq_getElem, eq] at use
    · exact stays h
  | windowOpens window future early => exact windowChange_putWindow window (.opens future early) h
  | windowsMove q kind sel may =>
    rw [windowOf_moveWindows] at h
    split at h
    · next same =>
      subst same
      obtain ⟨w, window, rfl⟩ := Option.map_eq_some_iff.1 h
      refine ⟨w, window, ?_⟩
      by_cases chosen : sel k w = true
      · rw [if_pos chosen]; exact .moves kind (may k w window chosen)
      · rw [if_neg chosen]; exact .same (.refl w)
    · exact stays h
  | grant window future => exact windowChange_putWindow window (.placed _ future) h
  | @shift q k₁ k₂ w₁ w₂ x rest _ window holders there future differ _ =>
    have still : windowOf (putWindow q k₁ (moveOut x rest w₁) s) q k₂ = some w₂ :=
      (windowOf_putWindow_other _ s (by omega)).trans there
    rcases windowOf_putWindow still h with ⟨rfl, rfl, rfl⟩ | ⟨-, old⟩
    · exact ⟨w₂, there, .placed x future⟩
    · exact windowChange_putWindow window (.movedOut holders) old
  | flexed window holders => exact windowChange_putWindow window (.movedOut holders) h
  | leaves window found left => exact windowChange_putWindow window (.left found left) h
  | clockSet | passesSet | phaseMoves | checkBegins | checkEnds | leavesFlex | itemsDropped | itemsJoin | itemTaken =>
    exact stays h
  | itemCompletes item done =>
    obtain ⟨w, e, eq⟩ := completeItem_frame _ s
    rw [eq] at h
    exact stays h

/-! ## The accounts of a window (R58) -/

/-- R56: a credential's entry in a list, with what stands before and behind it. -/
theorem holderIn_split {c : Credential} {hs : List Holder} {h : Holder} (found : holderIn c hs = some h) :
    ∃ before after, hs = before ++ h :: after ∧ withoutHolder c hs = before ++ after ∧
      ∀ x ∈ before, x.credential ≠ c := by
  obtain ⟨here, before, after, rfl, absent⟩ := List.find?_eq_some_iff_append.1 found
  have absent' : ∀ x ∈ before, ¬(x.credential == c) = true := by simpa using absent
  refine ⟨before, after, rfl, ?_, by simpa using absent⟩
  rw [withoutHolder, List.eraseP_append_right _ absent', List.eraseP_cons_of_pos (p := fun x : Holder => x.credential == c) here]

/-- The parties of a holder list without an entry. -/
theorem parties_withoutHolder {c : Credential} {hs : List Holder} {h : Holder} (found : holderIn c hs = some h) :
    (hs.map Holder.party).sum = h.party + ((withoutHolder c hs).map Holder.party).sum := by
  obtain ⟨before, after, rfl, without, -⟩ := holderIn_split found
  rw [without]
  simp only [List.map_append, List.map_cons, List.sum_append, List.sum_cons]
  omega

theorem accountsHold_iff {s : State} : accountsHold s ↔ ∀ r k w, windowOf s r k = some w → w.accountsHold := by
  simp only [accountsHold, windowOf]
  constructor
  · exact fun all r k w found => all r w (List.mem_of_getElem? found)
  · intro all r w here
    obtain ⟨k, found⟩ := List.getElem?_of_mem here
    exact all r k w found

theorem WindowChange.accounts {m : Nat} {w w' : Window} (change : WindowChange m w w') (accounts : w.accountsHold) :
    w'.accountsHold := by
  obtain ⟨booked, held⟩ := accounts
  cases change with
  | same use =>
    refine ⟨?_, ?_⟩
    · rw [use.booked, use.held, use.redeemed, use.expired, use.movedOut]; exact booked
    · rw [use.held, use.holders]; exact held
  | opens => exact ⟨booked, held⟩
  | moves kind => exact ⟨booked, held⟩
  | placed h =>
    refine ⟨?_, ?_⟩
    · simp only [placeIn]; omega
    · simp only [placeIn, List.map_append, List.sum_append, List.map_cons, List.map_nil, List.sum_cons, List.sum_nil]
      omega
  | movedOut holders =>
    rw [holders, List.map_cons, List.sum_cons] at held
    constructor <;> simp only [moveOut] <;> omega
  | left found left =>
    have parties := parties_withoutHolder found
    cases left with
    | expired rest holders =>
      rw [holders, List.map_cons, List.sum_cons] at held
      constructor <;> simp only [expireOut] <;> omega
    | removed => constructor <;> simp only [removeOut] <;> omega
    | redeemed => constructor <;> simp only [redeemOut] <;> omega

/-- Settles O53: an act changes a window in a few ways, each of which keeps its accounts, and the windows of a passed check
are empty. -/
theorem accountsKept : Obligations.AccountsKept := by
  unfold Obligations.AccountsKept
  intro s t accounts stepped
  refine step_keeps (P := accountsHold) (fun _ _ h => h) ?_ ?_ accounts stepped
  · intro m s t accounts act
    rw [accountsHold_iff] at accounts ⊢
    intro r k w' window
    obtain ⟨w, old, change⟩ := act.window window
    exact change.accounts (accounts r k w old)
  · exact fun s t _ opened r w here => (opened.windows r w here).2

/-! ## The empty night (R1, R2) -/

theorem windowOf_of_empty {s : State} {r : Ride} {k : Nat} {w : Window} (window : windowOf s r k = some w) :
    look s.calendar.windows r ≠ [] := by
  intro empty
  rw [windowOf, empty] at window
  cases window

/-- Outside the day no window stands. -/
theorem inDay_of_windowOf {s : State} {r : Ride} {k : Nat} {w : Window} (empty : nightIsEmpty s)
    (window : windowOf s r k = some w) : inDay s.day.phase = true := by
  by_contra off
  exact windowOf_of_empty window ((empty (by simpa using off)).1 r).1

theorem look_upd_nil {α : Type} {n : Nat} {t : Table n (List α)} (r q : Fin n) {f : List α → List α} (none : f [] = [])
    (empty : ∀ r, look t r = []) : look (upd t r f) q = [] := by
  rw [look_upd]
  split
  · rw [empty r, none]
  · exact empty q

theorem Act.nightIsEmpty {m : Nat} {s t : State} (act : Act m s t) (empty : nightIsEmpty s) : nightIsEmpty t := by
  intro night
  cases act with
  | same same =>
    obtain ⟨lists, guests, workList, item⟩ := empty (same.phase ▸ night)
    rw [same.windows, same.flex, same.guests, same.workList, same.item]
    exact ⟨lists, guests, workList, item⟩
  | gone gone =>
    exact ⟨fun r => ⟨gone.windows r, gone.flex r⟩, gone.guests, gone.workList, gone.item⟩
  | phaseMoves p day day' => exact absurd night (by simp [day'])
  | checkBegins before => exact empty (by rw [before]; rfl)
  | checkEnds before => exact empty (by rw [before]; rfl)
  | windowsTouched r f touched =>
    obtain ⟨lists, rest⟩ := empty night
    refine ⟨fun q => ⟨look_upd_nil r q ?_ fun q => (lists q).1, (lists q).2⟩, rest⟩
    have touched := (lists r).1 ▸ touched
    exact List.forall₂_nil_left_iff.1 touched
  | windowsMove r kind sel may =>
    obtain ⟨o, eq⟩ := moveWindows_frame r kind sel s
    rw [eq] at night ⊢
    obtain ⟨lists, rest⟩ := empty night
    exact ⟨fun q => ⟨look_upd_nil r q rfl fun q => (lists q).1, (lists q).2⟩, rest⟩
  | windowOpens window | grant window | shift window | flexed window | leaves window =>
    exact Bool.noConfusion ((inDay_of_windowOf empty window).symm.trans night)
  | @leavesFlex r c h found =>
    have none := ((empty night).1 r).2
    have found' : holderIn c (look s.calendar.flex r) = some h := found
    rw [none] at found'
    cases found'
  | itemTaken =>
    obtain ⟨lists, guests, workList, item⟩ := empty night
    have none : takeItem s.walker = { s.walker with item := .none } := by
      unfold takeItem
      split
      · rfl
      · next split => rw [workList] at split; cases split
    exact ⟨lists, guests, by rw [none]; exact workList, by rw [none]⟩
  | itemsJoin day => exact absurd night (by simp [day])
  | @itemCompletes i item =>
    obtain ⟨w, e, eq⟩ := completeItem_frame i s
    rw [eq] at night
    rw [(empty night).2.2.2] at item
    cases item
  | clockSet | passesSet | itemsDropped => exact empty night

theorem Act.clockSetByDay {m : Nat} {s t : State} (act : Act m s t) (set : clockSetByDay s) : clockSetByDay t := by
  intro day
  cases act with
  | same same => rw [same.clock]; exact set (same.phase ▸ day)
  | gone gone => exact absurd gone.phase day
  | clockSet n => rfl
  | phaseMoves p before => exact set fun night => by simp [night, inDay] at before
  | checkBegins _ clock => exact clock
  | checkEnds => exact absurd rfl day
  | windowsMove r kind sel =>
    obtain ⟨o, eq⟩ := moveWindows_frame r kind sel s
    rw [eq] at day ⊢
    exact set day
  | itemCompletes =>
    obtain ⟨w, e, eq⟩ := completeItem_frame _ s
    rw [eq] at day ⊢
    exact set day
  | _ => exact set day

/-- Settles O54: act by act; a claim on a window or a flex list is not made outside the day, where there is none. -/
theorem nightIsEmptyKept : Obligations.NightIsEmptyKept := by
  unfold Obligations.NightIsEmptyKept
  refine ⟨fun s t empty stepped => ?_, fun s t set stepped => ?_⟩
  · refine step_keeps (P := nightIsEmpty) (fun _ _ h => h) (fun m s t h act => act.nightIsEmpty h) ?_ empty stepped
    exact fun s t _ opened night => absurd night (by simp [opened.phase])
  · refine step_keeps (P := clockSetByDay) (fun _ _ h => h) (fun m s t h act => act.clockSetByDay h) ?_ set stepped
    intro s t set opened _
    rw [opened.clock]
    exact set (by rw [opened.checking]; decide)

/-! ## The states of a window (R44) -/

/-- How a window moves while windows open and close at the minute `m`. -/
structure WindowMoves (m : Nat) (w w' : Window) : Prop where
  start : w'.start = w.start
  stop : w'.stop = w.stop
  reaches : w.state.reaches w'.state = true
  opened : w.state = .future → w'.state = .redeemable ∨ w'.state = .past → m ≤ w.start
  closed : w.state ≠ .past → w'.state = .past → w.stop ≤ m

theorem WindowState.reaches_refl (x : WindowState) : x.reaches x = true := by cases x <;> rfl

theorem WindowState.reaches_trans {x y z : WindowState} (h : x.reaches y = true) (h' : y.reaches z = true) :
    x.reaches z = true := by
  revert h h'
  cases x <;> cases y <;> cases z <;> decide

theorem WindowMoves.of_state {m : Nat} {w w' : Window} (start : w'.start = w.start) (stop : w'.stop = w.stop)
    (state : w'.state = w.state) : WindowMoves m w w' where
  start := start
  stop := stop
  reaches := by rw [state]; exact WindowState.reaches_refl _
  opened future moved := by rw [state, future] at moved; simp at moved
  closed off on := absurd (state ▸ on) off

theorem WindowMoves.trans {m : Nat} {w u v : Window} (h : WindowMoves m w u) (h' : WindowMoves m u v) :
    WindowMoves m w v where
  start := h'.start.trans h.start
  stop := h'.stop.trans h.stop
  reaches := WindowState.reaches_trans h.reaches h'.reaches
  opened future moved := by
    have later := h'.reaches
    cases middle : u.state with
    | future => exact h.start ▸ h'.opened middle moved
    | redeemable => exact h.opened future (.inl middle)
    | past => exact h.opened future (.inr middle)
    | lost => rcases moved with e | e <;> simp [middle, e, WindowState.reaches] at later
  closed off on := by
    by_cases middle : u.state = .past
    · exact h.closed off middle
    · exact h.stop ▸ h'.closed middle on

theorem WindowChange.moves_forward {m : Nat} {w w' : Window} (change : WindowChange m w w') : WindowMoves m w w' := by
  cases change with
  | same use => exact .of_state use.start use.stop use.state
  | opens future early =>
    refine ⟨rfl, rfl, by rw [future]; rfl, fun _ _ => early, fun _ on => by cases on⟩
  | moves kind may =>
    cases kind with
    | displace =>
      refine ⟨rfl, rfl, ?_, fun _ moved => ?_, fun _ on => by cases on⟩
      · rcases may with e | e <;> rw [e] <;> rfl
      · rcases moved with e | e <;> cases e
    | expire =>
      obtain ⟨redeemable, late⟩ := may
      refine ⟨rfl, rfl, by rw [redeemable]; rfl, fun future _ => ?_, fun _ _ => late⟩
      rw [redeemable] at future
      cases future
  | placed => exact .of_state rfl rfl rfl
  | movedOut => exact .of_state rfl rfl rfl
  | left _ left => cases left <;> exact .of_state rfl rfl rfl

theorem Acts.window {m : Nat} {s t : State} (acts : Acts m s t) {r : Ride} {k : Nat} {w' : Window}
    (h : windowOf t r k = some w') : ∃ w, windowOf s r k = some w ∧ WindowMoves m w w' := by
  induction acts generalizing w' with
  | refl => exact ⟨w', h, .of_state rfl rfl rfl⟩
  | tail _ act ih =>
    obtain ⟨u, middle, change⟩ := act.window h
    obtain ⟨w, old, moves⟩ := ih middle
    exact ⟨w, old, moves.trans change.moves_forward⟩

theorem Acts.windowsMoveForward {m : Nat} {s t : State} (acts : Acts m s t) : windowsMoveForward s t := by
  intro r k w' window
  obtain ⟨w, old, moves⟩ := acts.window window
  refine ⟨w, old, moves.start, moves.stop, moves.reaches, fun order both => ?_⟩
  have early := moves.opened both.1 (.inr both.2)
  have late := moves.closed (by rw [both.1]; decide) both.2
  omega

/-- Settles O58: every command but the completion of a check is a chain of acts at one minute, at which a window opens only
if it starts no earlier, and closes only if it ends no later. -/
theorem step_windowsMoveForward : Obligations.WindowsMoveForward := by
  unfold Obligations.WindowsMoveForward
  intro s t notCheck h
  unfold step at h
  split at h
  · cases h; exact (Acts.refl 0 s).windowsMoveForward
  · next c rest queue =>
    rcases exec_acts h with ⟨m, acts⟩ | ⟨check, -⟩
    · exact acts.windowsMoveForward (s := s.withPending rest)
    · exact absurd (by rw [queue, check]; rfl) notCheck

end Sys2Proof.Machine
end

section
/-! PROOFS. Chapter 4, the Guest Table: what its operations make of a record and of a pass, with the lookups of R20 and R165
(O50), and what every step keeps of it (O56). -/

namespace Sys2Proof.Machine

/-! ## Records in ascending order -/

/-- R61: the records stand in strictly ascending order of credential. -/
def Ascending (gs : List Guest) : Prop := gs.Pairwise fun a b => a.credential.toNat < b.credential.toNat

theorem Ascending.eq {gs : List Guest} (asc : Ascending gs) {g h : Guest} (hg : g ∈ gs) (hh : h ∈ gs)
    (same : g.credential = h.credential) : g = h := by
  induction gs with
  | nil => cases hg
  | cons x xs ih =>
    obtain ⟨first, asc'⟩ := List.pairwise_cons.1 asc
    rcases List.mem_cons.1 hg with rfl | inG <;> rcases List.mem_cons.1 hh with rfl | inH
    · rfl
    · exact absurd (first h inH) (by rw [same]; omega)
    · exact absurd (first g inG) (by rw [same]; omega)
    · exact ih asc' inG inH

/-- A record is found by its credential. -/
theorem guestOf_eq_some {gs : List Guest} (asc : Ascending gs) {c : Credential} {g : Guest} :
    guestOf c gs = some g ↔ g ∈ gs ∧ g.credential = c := by
  constructor
  · exact fun found => ⟨List.mem_of_find?_eq_some found, by simpa using List.find?_some found⟩
  · rintro ⟨here, rfl⟩
    cases found : guestOf g.credential gs with
    | none => exact absurd (List.find?_eq_none.1 found g here) (by simp)
    | some h =>
      have same : h.credential = g.credential := by simpa using List.find?_some found
      rw [asc.eq (List.mem_of_find?_eq_some found) here same]

theorem guestOf_eq_none {gs : List Guest} {c : Credential} : guestOf c gs = none ↔ ∀ g ∈ gs, g.credential ≠ c := by
  simp [guestOf]

/-- The record that a pass joins. -/
def joined (c : Credential) (p : Pass) (gs : List Guest) : Guest := ⟨c, ((guestOf c gs).elim [] Guest.passes) ++ [p]⟩

theorem guestOf_cons (c : Credential) (g : Guest) (gs : List Guest) :
    guestOf c (g :: gs) = if g.credential = c then some g else guestOf c gs := by
  by_cases h : g.credential = c <;> simp [guestOf, h]

/-- R65: a pass joins its guest's record, or a new one; every other record stays. -/
theorem mem_addPass {gs : List Guest} (asc : Ascending gs) {c : Credential} {p : Pass} {x : Guest} :
    x ∈ addPass c p gs ↔ (x ∈ gs ∧ x.credential ≠ c) ∨ x = joined c p gs := by
  induction gs with
  | nil => simp [addPass, joined, guestOf]
  | cons g gs ih =>
    obtain ⟨first, asc'⟩ := List.pairwise_cons.1 asc
    rw [addPass]
    split
    · next less =>
      have absent : guestOf c (g :: gs) = none := guestOf_eq_none.2 fun y hy eq => by
        subst eq
        rcases List.mem_cons.1 hy with rfl | later
        · omega
        · exact absurd (first y later) (by omega)
      have apart : x ∈ g :: gs → x.credential ≠ c := fun hx => guestOf_eq_none.1 absent x hx
      simp only [joined, absent, Option.elim_none, List.nil_append, List.mem_cons] at apart ⊢
      tauto
    · split
      · next same =>
        subst same
        have apart : x ∈ gs → x.credential ≠ g.credential := fun hx eq => absurd (first x hx) (by rw [eq]; omega)
        simp only [joined, guestOf_cons, if_true, Option.elim_some, List.mem_cons]
        constructor
        · rintro (rfl | later)
          · exact .inr rfl
          · exact .inl ⟨.inr later, apart later⟩
        · rintro (⟨rfl | later, ne⟩ | rfl)
          · exact absurd rfl ne
          · exact .inr later
          · exact .inl rfl
      · next less differ =>
        have other : joined c p (g :: gs) = joined c p gs := by
          rw [joined, guestOf_cons, if_neg (Ne.symm differ), joined]
        have apart : x = g → x.credential ≠ c := fun e eq => differ (by rw [← eq, e])
        rw [List.mem_cons, ih asc', other, List.mem_cons]
        tauto

/-- R67: a pass leaves its guest's record, which leaves with its last pass; every other record stays. -/
theorem mem_dropPass {gs : List Guest} (asc : Ascending gs) {c : Credential} {r : Ride} {x : Guest} :
    x ∈ dropPass c r gs ↔ (x ∈ gs ∧ x.credential ≠ c) ∨
      ∃ g ∈ gs, g.credential = c ∧ x = ⟨c, g.passes.filter fun p => p.ride != r⟩ ∧ x.passes ≠ [] := by
  induction gs with
  | nil => simp [dropPass]
  | cons g gs ih =>
    obtain ⟨first, asc'⟩ := List.pairwise_cons.1 asc
    rw [dropPass]
    split
    · next same =>
      subst same
      have apart : ∀ y ∈ gs, y.credential ≠ g.credential := fun y hy eq => absurd (first y hy) (by rw [eq]; omega)
      have kept : (x ∈ g :: gs ∧ x.credential ≠ g.credential) ↔ x ∈ gs := by
        constructor
        · rintro ⟨here, ne⟩
          rcases List.mem_cons.1 here with rfl | later
          · exact absurd rfl ne
          · exact later
        · exact fun later => ⟨List.mem_cons_of_mem _ later, apart x later⟩
      have changed : (∃ y ∈ g :: gs, y.credential = g.credential ∧
          x = ⟨g.credential, y.passes.filter fun p => p.ride != r⟩ ∧ x.passes ≠ []) ↔
          (x = ⟨g.credential, g.passes.filter fun p => p.ride != r⟩ ∧ x.passes ≠ []) := by
        constructor
        · rintro ⟨y, here, eq, rest⟩
          rcases List.mem_cons.1 here with rfl | later
          · exact rest
          · exact absurd eq (apart y later)
        · exact fun rest => ⟨g, List.mem_cons_self, rfl, rest⟩
      rw [kept, changed]
      split
      · next none =>
        rw [none]
        constructor
        · exact .inl
        · rintro (later | ⟨rfl, some⟩)
          · exact later
          · exact absurd rfl some
      · next p ps some =>
        rw [some, List.mem_cons]
        constructor
        · rintro (rfl | later)
          · exact .inr ⟨rfl, by simp⟩
          · exact .inl later
        · rintro (later | ⟨rfl, -⟩)
          · exact .inr later
          · exact .inl rfl
    · next differ =>
      rw [List.mem_cons, ih asc']
      constructor
      · rintro (rfl | ⟨here, ne⟩ | ⟨y, here, rest⟩)
        · exact .inl ⟨List.mem_cons_self, differ⟩
        · exact .inl ⟨List.mem_cons_of_mem _ here, ne⟩
        · exact .inr ⟨y, List.mem_cons_of_mem _ here, rest⟩
      · rintro (⟨here, ne⟩ | ⟨y, here, eq, rest⟩)
        · rcases List.mem_cons.1 here with rfl | later
          · exact .inl rfl
          · exact .inr (.inl ⟨later, ne⟩)
        · rcases List.mem_cons.1 here with rfl | later
          · exact absurd eq differ
          · exact .inr (.inr ⟨y, later, eq, rest⟩)

theorem ascending_addPass {gs : List Guest} (asc : Ascending gs) (c : Credential) (p : Pass) :
    Ascending (addPass c p gs) := by
  induction gs with
  | nil => exact List.pairwise_singleton ..
  | cons g gs ih =>
    obtain ⟨first, asc'⟩ := List.pairwise_cons.1 asc
    rw [addPass]
    split
    · next less =>
      refine List.pairwise_cons.2 ⟨fun y hy => ?_, asc⟩
      rcases List.mem_cons.1 hy with rfl | later
      · exact less
      · exact less.trans (first y later)
    · split
      · exact List.pairwise_cons.2 ⟨first, asc'⟩
      · next less differ =>
        refine List.pairwise_cons.2 ⟨fun y hy => ?_, ih asc'⟩
        rcases (mem_addPass asc').1 hy with ⟨later, -⟩ | rfl
        · exact first y later
        · have apart : c.toNat ≠ g.credential.toNat := fun eq => differ (BitVec.eq_of_toNat_eq eq)
          show g.credential.toNat < c.toNat
          omega

theorem ascending_dropPass {gs : List Guest} (asc : Ascending gs) (c : Credential) (r : Ride) :
    Ascending (dropPass c r gs) := by
  induction gs with
  | nil => exact List.Pairwise.nil
  | cons g gs ih =>
    obtain ⟨first, asc'⟩ := List.pairwise_cons.1 asc
    rw [dropPass]
    split
    · split
      · exact asc'
      · exact List.pairwise_cons.2 ⟨first, asc'⟩
    · refine List.pairwise_cons.2 ⟨fun y hy => ?_, ih asc'⟩
      rcases (mem_dropPass asc').1 hy with ⟨later, -⟩ | ⟨h, later, rfl, rfl, -⟩
      · exact first y later
      · exact first h later

theorem length_addPass {gs : List Guest} (asc : Ascending gs) (c : Credential) (p : Pass) :
    (addPass c p gs).length = if guestOf c gs = none then gs.length + 1 else gs.length := by
  induction gs with
  | nil => rfl
  | cons g gs ih =>
    obtain ⟨first, asc'⟩ := List.pairwise_cons.1 asc
    rw [addPass]
    split
    · next less =>
      have absent : guestOf c (g :: gs) = none := guestOf_eq_none.2 fun y hy eq => by
        subst eq
        rcases List.mem_cons.1 hy with rfl | later
        · omega
        · exact absurd (first y later) (by omega)
      rw [if_pos absent]
      rfl
    · split
      · next same => simp [guestOf_cons, same]
      · next differ =>
        rw [List.length_cons, ih asc', guestOf_cons, if_neg (Ne.symm differ)]
        split <;> rfl

theorem length_dropPass_le (c : Credential) (r : Ride) (gs : List Guest) : (dropPass c r gs).length ≤ gs.length := by
  induction gs with
  | nil => exact le_refl _
  | cons g gs ih =>
    rw [dropPass]
    split
    · split
      · exact Nat.le_succ _
      · exact le_refl _
    · exact Nat.succ_le_succ ih

/-! ## The record of a guest -/

theorem guestOf_addPass_same {gs : List Guest} (asc : Ascending gs) (c : Credential) (p : Pass) :
    guestOf c (addPass c p gs) = some (joined c p gs) :=
  (guestOf_eq_some (ascending_addPass asc c p)).2 ⟨(mem_addPass asc).2 (.inr rfl), rfl⟩

theorem guestOf_addPass_other {gs : List Guest} (asc : Ascending gs) {c d : Credential} (p : Pass) (differ : d ≠ c) :
    guestOf d (addPass c p gs) = guestOf d gs := by
  ext x
  rw [guestOf_eq_some (ascending_addPass asc c p), guestOf_eq_some asc, mem_addPass asc]
  constructor
  · rintro ⟨⟨here, -⟩ | rfl, eq⟩
    · exact ⟨here, eq⟩
    · exact absurd eq.symm differ
  · rintro ⟨here, rfl⟩
    exact ⟨.inl ⟨here, differ⟩, rfl⟩

theorem guestOf_dropPass_other {gs : List Guest} (asc : Ascending gs) {c d : Credential} (r : Ride) (differ : d ≠ c) :
    guestOf d (dropPass c r gs) = guestOf d gs := by
  ext x
  rw [guestOf_eq_some (ascending_dropPass asc c r), guestOf_eq_some asc, mem_dropPass asc]
  constructor
  · rintro ⟨⟨here, -⟩ | ⟨g, -, -, rfl, -⟩, eq⟩
    · exact ⟨here, eq⟩
    · exact absurd eq.symm differ
  · rintro ⟨here, rfl⟩
    exact ⟨.inl ⟨here, differ⟩, rfl⟩

/-- R67: a guest's record without the passes for a ride, if any is left. -/
theorem guestOf_dropPass_same {gs : List Guest} (asc : Ascending gs) {c : Credential} {r : Ride} {x : Guest} :
    guestOf c (dropPass c r gs) = some x ↔
      ∃ g, guestOf c gs = some g ∧ x = ⟨c, g.passes.filter fun p => p.ride != r⟩ ∧ x.passes ≠ [] := by
  rw [guestOf_eq_some (ascending_dropPass asc c r), mem_dropPass asc]
  constructor
  · rintro ⟨⟨-, differ⟩ | ⟨g, here, eq, rest⟩, same⟩
    · exact absurd same differ
    · exact ⟨g, (guestOf_eq_some asc).2 ⟨here, eq⟩, rest⟩
  · rintro ⟨g, found, rfl, some⟩
    obtain ⟨here, eq⟩ := (guestOf_eq_some asc).1 found
    exact ⟨.inr ⟨g, here, eq, rfl, some⟩, rfl⟩

theorem dropPass_of_none {gs : List Guest} {c : Credential} (r : Ride) (absent : guestOf c gs = none) :
    dropPass c r gs = gs := by
  induction gs with
  | nil => rfl
  | cons g gs ih =>
    rw [guestOf_eq_none] at absent
    rw [dropPass, if_neg (absent g List.mem_cons_self),
      ih (guestOf_eq_none.2 fun y hy => absent y (List.mem_cons_of_mem _ hy))]

/-! ## The lookups (R20, R165) -/

theorem indices_eq (n : Nat) : indices n = List.finRange n := rfl

/-- The member of lowest index that satisfies a test. -/
theorem find?_indices {n : Nat} {p : Fin n → Bool} {i : Fin n} :
    (indices n).find? p = some i ↔ p i = true ∧ ∀ j, j < i → p j = false := by
  rw [indices_eq, List.find?_eq_some_iff_getElem]
  constructor
  · rintro ⟨here, k, inside, rfl, first⟩
    refine ⟨here, fun j less => ?_⟩
    have := first j.val (by simpa [Fin.lt_def] using less)
    simpa using this
  · rintro ⟨here, first⟩
    refine ⟨here, i.val, by simp, by simp, fun j less => ?_⟩
    have := first ⟨j, by omega⟩ (by simpa [Fin.lt_def] using less)
    simpa using this

theorem and_beq_eq_false {α : Type} [BEq α] [LawfulBEq α] {b : Bool} {x y : α} :
    (b && x == y) = false ↔ (b = true → x ≠ y) := by
  cases b <;> simp

theorem rideByLabel_eq_some {s : State} {l : Label} {r : Ride} : rideByLabel s l = some r ↔
    (look s.rideTable r).enabled = true ∧ (look s.rideTable r).label = l ∧
      ∀ q : Ride, q < r → (look s.rideTable q).enabled = true → (look s.rideTable q).label ≠ l := by
  simp only [rideByLabel, find?_indices, rideEntry, Bool.and_eq_true, beq_iff_eq, and_beq_eq_false, and_assoc]

theorem rideByController_eq_some {s : State} {a : Addr} {r : Ride} : rideByController s a = some r ↔
    (look s.rideTable r).enabled = true ∧ (look s.rideTable r).controllerAddress = a ∧
      ∀ q : Ride, q < r → (look s.rideTable q).enabled = true → (look s.rideTable q).controllerAddress ≠ a := by
  simp only [rideByController, find?_indices, rideEntry, Bool.and_eq_true, beq_iff_eq, and_beq_eq_false, and_assoc]

theorem readerByAddress_eq_some {s : State} {a : Addr} {i : ReaderIx} : readerByAddress s a = some i ↔
    (look s.readers i).used = true ∧ (look s.readers i).address = a ∧
      ∀ j : ReaderIx, j < i → (look s.readers j).used = true → (look s.readers j).address ≠ a := by
  simp only [readerByAddress, find?_indices, Bool.and_eq_true, beq_iff_eq, and_beq_eq_false, and_assoc]

/-- Settles O50: the lookups find the match of lowest index; the records of a changed table are those of `mem_addPass` and
`mem_dropPass`. -/
theorem lookupsAndGuestTable : Obligations.LookupsAndGuestTable := by
  unfold Obligations.LookupsAndGuestTable
  refine ⟨fun s => ⟨fun l r => rideByLabel_eq_some, fun a r => rideByController_eq_some, fun a i =>
    readerByAddress_eq_some⟩, fun gs c asc => ⟨guestOf_addPass_same asc c, fun p d => guestOf_addPass_other asc p,
    length_addPass asc c, fun r d => guestOf_dropPass_other asc r, fun r => dropPass_of_none r, ?emptied, ?left⟩⟩
  case emptied =>
    intro r g found all
    cases dropped : guestOf c (dropPass c r gs) with
    | none => rfl
    | some x =>
      obtain ⟨g', found', rfl, some⟩ := (guestOf_dropPass_same asc).1 dropped
      obtain rfl : g = g' := Option.some.inj (found.symm.trans found')
      exact absurd (List.filter_eq_nil_iff.2 fun p hp => by simp [all p hp]) some
  case left =>
    rintro r g found ⟨p, hp, other⟩
    refine (guestOf_dropPass_same asc).2 ⟨g, found, rfl, ?_⟩
    exact List.ne_nil_of_mem (List.mem_filter.2 ⟨hp, by simpa using other⟩)

/-! ## What every step keeps (R61, R62) -/

theorem passIn_eq_none {r : Ride} {ps : List Pass} : passIn r ps = none ↔ ∀ p ∈ ps, p.ride ≠ r := by
  simp [passIn]

/-- R64: what a table and a guest's record are like that a further pass may join. -/
theorem guestRefusal_eq_none {limit : Nat} {c : Credential} {r : Ride} {gs : List Guest} :
    guestRefusal limit c r gs = none ↔
      (∀ g, guestOf c gs = some g → (∀ p ∈ g.passes, p.ride ≠ r) ∧ g.passes.length < limit) ∧
        (guestOf c gs = none → gs.length < 65536) := by
  unfold guestRefusal
  cases guestOf c gs with
  | none =>
    simp only [Config.guestPlaces, reduceCtorEq, false_implies, implies_true, true_and, forall_const]
    rcases Nat.lt_or_ge gs.length 65536 with room | full
    · simp [room, Nat.not_le.2 room]
    · simp [full]
  | some g =>
    simp only [Option.some.injEq, forall_eq', reduceCtorEq, false_implies, and_true]
    cases found : passIn r g.passes with
    | none =>
      have other := passIn_eq_none.1 found
      simp only [Option.isSome_none, Bool.false_eq_true, if_false]
      rcases Nat.lt_or_ge g.passes.length limit with room | full
      · simpa [room] using other
      · simp [full]
    | some p =>
      have twice : ¬∀ q ∈ g.passes, q.ride ≠ r := fun none => by rw [passIn_eq_none.2 none] at found; cases found
      simp only [Option.isSome_some, if_true, reduceCtorEq, twice, false_and]

theorem guestTableWf_addPass {s : State} {c : Credential} {p : Pass} {limit : Nat} (wf : guestTableWf s) (notZero : c ≠ 0)
    (notOnes : c ≠ BitVec.allOnes 48) (room : guestRefusal limit c p.ride s.guests = none) :
    guestTableWf { s with guests := addPass c p s.guests } := by
  obtain ⟨asc, length, records⟩ := wf
  obtain ⟨joins, creates⟩ := guestRefusal_eq_none.1 room
  refine ⟨ascending_addPass asc c p, ?_, fun x hx => ?_⟩
  · show (addPass c p s.guests).length ≤ 65536
    rw [length_addPass asc]
    split
    · next absent => have := creates absent; omega
    · exact length
  · rcases (mem_addPass asc).1 hx with ⟨here, -⟩ | rfl
    · exact records x here
    · refine ⟨notZero, notOnes, by simp [joined], ?_⟩
      cases found : guestOf c s.guests with
      | none => simp [joined, found]
      | some g =>
        obtain ⟨here, -⟩ := (guestOf_eq_some asc).1 found
        obtain ⟨-, -, -, once⟩ := records g here
        have other := (joins g found).1
        simp only [joined, found, Option.elim_some, List.map_append, List.map_cons, List.map_nil]
        refine List.nodup_append'.2 ⟨once, List.nodup_singleton _, ?_⟩
        simpa [List.disjoint_singleton] using other

theorem guestTableWf_dropPass {s : State} (c : Credential) (r : Ride) (wf : guestTableWf s) :
    guestTableWf { s with guests := dropPass c r s.guests } := by
  obtain ⟨asc, length, records⟩ := wf
  refine ⟨ascending_dropPass asc c r, (length_dropPass_le c r _).trans length, fun x hx => ?_⟩
  rcases (mem_dropPass asc).1 hx with ⟨here, -⟩ | ⟨g, here, rfl, rfl, some⟩
  · exact records x here
  · obtain ⟨notZero, notOnes, -, once⟩ := records g here
    exact ⟨notZero, notOnes, some, once.sublist (List.filter_sublist.map Pass.ride)⟩

theorem map_ride_changed {r : Ride} {f : Pass → Pass} (ride : ∀ p, (f p).ride = p.ride) (ps : List Pass) :
    (ps.map fun p => if p.ride = r then f p else p).map Pass.ride = ps.map Pass.ride := by
  rw [List.map_map]
  refine List.map_congr_left fun p _ => ?_
  simp only [Function.comp_apply]
  split
  · exact ride p
  · rfl

theorem guestTableWf_changePass {s : State} (c : Credential) {r : Ride} {f : Pass → Pass} (ride : ∀ p, (f p).ride = p.ride)
    (wf : guestTableWf s) : guestTableWf { s with guests := changePass c r f s.guests } := by
  obtain ⟨asc, length, records⟩ := wf
  refine ⟨?_, by simpa [changePass] using length, fun x hx => ?_⟩
  · refine List.pairwise_map.2 (asc.imp fun {a b} less => ?_)
    split <;> split <;> exact less
  · obtain ⟨g, here, rfl⟩ := List.mem_map.1 hx
    obtain ⟨notZero, notOnes, some, once⟩ := records g here
    split
    · refine ⟨notZero, notOnes, by simpa using some, ?_⟩
      rw [map_ride_changed ride]
      exact once
    · exact records g here

theorem Act.guestTableWf {m : Nat} {s t : State} (act : Act m s t) (wf : guestTableWf s) : guestTableWf t := by
  cases act with
  | same same =>
    unfold Machine.guestTableWf
    rw [same.guests]
    exact wf
  | gone gone =>
    unfold Machine.guestTableWf
    rw [gone.guests]
    exact ⟨List.Pairwise.nil, by simp, by simp⟩
  | @grant r k w c p window future notZero notOnes room ride place =>
    exact guestTableWf_addPass (limit := s.day.park.passesPerGuest) wf notZero notOnes (ride ▸ room)
  | shift _ _ _ _ _ keeps => exact guestTableWf_changePass _ (fun p => (keeps p).1) wf
  | flexed _ _ keeps => exact guestTableWf_changePass _ (fun p => (keeps p).1) wf
  | leaves => exact guestTableWf_dropPass _ _ wf
  | leavesFlex => exact guestTableWf_dropPass _ _ wf
  | windowsMove r kind sel =>
    obtain ⟨o, eq⟩ := moveWindows_frame r kind sel s
    rw [eq]
    exact wf
  | itemCompletes =>
    obtain ⟨w, e, eq⟩ := completeItem_frame _ s
    rw [eq]
    exact wf
  | clockSet | passesSet | phaseMoves | checkBegins | checkEnds | windowsTouched | windowOpens | itemsDropped | itemsJoin
    | itemTaken => exact wf

/-- The guests' passes are as many as allowed, in a sound table that is empty at night. -/
structure PassesSound (s : State) : Prop where
  table : guestTableWf s
  night : nightIsEmpty s
  bounded : passesBounded s

theorem Act.passesBounded {m : Nat} {s t : State} (act : Act m s t) (sound : PassesSound s) : passesBounded t := by
  obtain ⟨⟨asc, -, -⟩, night, some, atMost⟩ := sound
  have dropped (c : Credential) (r : Ride) : ∀ g ∈ dropPass c r s.guests, g.passes.length ≤ s.day.park.passesPerGuest := by
    intro x hx
    rcases (mem_dropPass asc).1 hx with ⟨here, -⟩ | ⟨g, here, rfl, rfl, -⟩
    · exact atMost x here
    · exact (List.length_filter_le ..).trans (atMost g here)
  have changed (c : Credential) (r : Ride) (f : Pass → Pass) :
      ∀ g ∈ changePass c r f s.guests, g.passes.length ≤ s.day.park.passesPerGuest := by
    intro x hx
    obtain ⟨g, here, rfl⟩ := List.mem_map.1 hx
    have := atMost g here
    split
    · simpa using this
    · exact this
  cases act with
  | same same =>
    unfold Machine.passesBounded
    rw [same.passes, same.guests]
    exact ⟨some, atMost⟩
  | gone gone =>
    refine ⟨?_, by rw [gone.guests]; simp⟩
    rcases gone.passes with e | e <;> omega
  | passesSet v phase atLeast =>
    have none : s.guests = [] := (night (by rw [phase]; rfl)).2.1
    refine ⟨atLeast, ?_⟩
    show ∀ g ∈ s.guests, _
    rw [none]
    simp
  | @grant r k w c p window future notZero notOnes room ride place =>
    refine ⟨some, fun x hx => ?_⟩
    rcases (mem_addPass asc).1 hx with ⟨here, -⟩ | rfl
    · exact atMost x here
    · show (joined c p s.guests).passes.length ≤ s.day.park.passesPerGuest
      cases found : guestOf c s.guests with
      | none => simpa [joined, found] using some
      | some g =>
        have := ((guestRefusal_eq_none.1 room).1 g found).2
        simpa [joined, found] using this
  | shift => exact ⟨some, changed _ _ _⟩
  | flexed => exact ⟨some, changed _ _ _⟩
  | leaves => exact ⟨some, dropped _ _⟩
  | leavesFlex => exact ⟨some, dropped _ _⟩
  | windowsMove r kind sel =>
    obtain ⟨o, eq⟩ := moveWindows_frame r kind sel s
    rw [eq]
    exact ⟨some, atMost⟩
  | itemCompletes =>
    obtain ⟨w, e, eq⟩ := completeItem_frame _ s
    rw [eq]
    exact ⟨some, atMost⟩
  | clockSet | phaseMoves | checkBegins | checkEnds | windowsTouched | windowOpens | itemsDropped | itemsJoin
    | itemTaken => exact ⟨some, atMost⟩

/-- Settles O56: a grant adds a pass only where R64 lets it, and PASSES_PER_GUEST changes in NIGHT alone, where the table is
empty. -/
theorem guestTableKept : Obligations.GuestTableKept := by
  unfold Obligations.GuestTableKept
  refine ⟨fun s t wf stepped => ?_, fun s t table night bounded stepped => ?_⟩
  · refine step_keeps (P := guestTableWf) (fun _ _ h => h) (fun m s t h act => act.guestTableWf h) ?_ wf stepped
    intro s t wf opened
    unfold guestTableWf
    rw [opened.guests]
    exact wf
  · have kept : PassesSound t := by
      refine step_keeps (P := PassesSound) ?_ ?_ ?_ ⟨table, night, bounded⟩ stepped
      · exact fun s cs sound => ⟨sound.table, sound.night, sound.bounded⟩
      · exact fun m s t sound act => ⟨act.guestTableWf sound.table, act.nightIsEmpty sound.night, act.passesBounded sound⟩
      · intro s t sound opened
        refine ⟨?_, fun night => absurd night (by simp [opened.phase]), ?_⟩
        · unfold guestTableWf
          rw [opened.guests]
          exact sound.table
        · unfold passesBounded
          rw [opened.guests, opened.passes]
          exact sound.bounded
    exact kept.bounded

end Sys2Proof.Machine
end

section
/-! PROOFS. Chapter 7, what every step keeps of the Walker's items (O59). -/

namespace Sys2Proof.Machine

/-! ## The parts of the invariant -/

/-- R44: a window that a work item may name. -/
def Window.left (w : Window) : Prop := w.state = .lost ∨ w.state = .past

/-- R48, R114, R115: no window has two items, every item names a window in the state its kind needs, and a LOST or PAST window
with holders has its item. -/
structure ItemsSound (windows : Ride → Nat → Option Window) (items : List WorkItem) : Prop where
  once : (items.map fun i => (i.ride, i.window)).Nodup
  named : ∀ i ∈ items, ∃ w, windows i.ride i.window = some w ∧ w.state = i.kind.needs
  listed : ∀ r k w, windows r k = some w → w.left → w.holders ≠ [] → ∃ i ∈ items, i.ride = r ∧ i.window = k

/-- R115: a ride's displacing count is the number of its DISPLACE items. -/
def CountsSound (displacing : Table 48 Nat) (items : List WorkItem) : Prop :=
  ∀ r : Ride, look displacing r = (items.filter fun i => decide (i.kind = .displace ∧ i.ride = r)).length

/-- The Walker's items on the list and in progress. -/
def onWalk (w : Walker) : List WorkItem := w.workList ++ w.item.toList

/-- Outside the day the Walker has no item, and no ride is displacing. -/
def atRest (w : Walker) : Prop := w.workList = [] ∧ w.item = none ∧ ∀ r : Ride, look w.displacing r = 0

theorem walkerSound_iff {s : State} : walkerSound s ↔
    (inDay s.day.phase = true → ItemsSound (windowOf s) (workItems s) ∧ CountsSound s.walker.displacing (onWalk s.walker)) ∧
      (inDay s.day.phase = false → atRest s.walker) := by
  constructor
  · rintro ⟨day, night⟩
    refine ⟨fun h => ?_, night⟩
    obtain ⟨once, named, listed, counts⟩ := day h
    exact ⟨⟨once, named, listed⟩, counts⟩
  · rintro ⟨day, night⟩
    refine ⟨fun h => ?_, night⟩
    obtain ⟨⟨once, named, listed⟩, counts⟩ := day h
    exact ⟨once, named, listed, counts⟩

theorem WorkKind.needs_left {w : Window} {kind : WorkKind} (h : w.state = kind.needs) : w.left := by
  cases kind
  · exact .inl h
  · exact .inr h

theorem ItemsSound.perm {windows : Ride → Nat → Option Window} {items items' : List WorkItem} (perm : items.Perm items')
    (sound : ItemsSound windows items) : ItemsSound windows items' where
  once := (perm.map _).nodup_iff.1 sound.once
  named i here := sound.named i (perm.mem_iff.2 here)
  listed r k w window left holders := by
    obtain ⟨i, here, names⟩ := sound.listed r k w window left holders
    exact ⟨i, perm.mem_iff.1 here, names⟩

theorem CountsSound.perm {d : Table 48 Nat} {items items' : List WorkItem} (perm : items.Perm items')
    (sound : CountsSound d items) : CountsSound d items' :=
  fun r => (sound r).trans (perm.filter _).length_eq

/-! ## Windows that keep their items -/

/-- A window's change after which its item, if any, is still right, and none is missing. -/
structure KeepsItem (w w' : Window) : Prop where
  state : w.left → w'.state = w.state
  holders : w'.left → w'.state = w.state ∧ (w'.holders ≠ [] → w.holders ≠ [])

theorem KeepsItem.refl (w : Window) : KeepsItem w w := ⟨fun _ => rfl, fun _ => ⟨rfl, id⟩⟩

theorem KeepsItem.of_open {w w' : Window} (was : ¬w.left) (is : ¬w'.left) : KeepsItem w w' :=
  ⟨fun h => absurd h was, fun h => absurd h is⟩

theorem KeepsItem.of_held {w w' : Window} (state : w'.state = w.state) (held : w.holders ≠ []) : KeepsItem w w' :=
  ⟨fun _ => state, fun _ => ⟨state, fun _ => held⟩⟩

theorem Window.not_left_of_future {w : Window} (future : w.state = .future) : ¬w.left := by
  rintro (h | h) <;> rw [future] at h <;> cases h

/-- The windows of `windows'` stand in `windows`, each changed so that its item is still right. -/
structure WindowsKeepItems (windows windows' : Ride → Nat → Option Window) : Prop where
  stays : ∀ r k w, windows r k = some w → ∃ w', windows' r k = some w' ∧ KeepsItem w w'
  stood : ∀ r k w', windows' r k = some w' → ∃ w, windows r k = some w ∧ KeepsItem w w'

theorem ItemsSound.windows {windows windows' : Ride → Nat → Option Window} {items : List WorkItem}
    (keep : WindowsKeepItems windows windows') (sound : ItemsSound windows items) : ItemsSound windows' items where
  once := sound.once
  named i here := by
    obtain ⟨w, window, needed⟩ := sound.named i here
    obtain ⟨w', window', keeps⟩ := keep.stays i.ride i.window w window
    exact ⟨w', window', (keeps.state (WorkKind.needs_left needed)).trans needed⟩
  listed r k w' window left held := by
    obtain ⟨w, old, keeps⟩ := keep.stood r k w' window
    obtain ⟨state, holders⟩ := keeps.holders left
    refine sound.listed r k w old ?_ (holders held)
    unfold Window.left at left ⊢
    rwa [← state]

theorem putWindow_keepsItems {r : Ride} {k : Nat} {w u : Window} {s : State} (window : windowOf s r k = some u)
    (keeps : KeepsItem u w) : WindowsKeepItems (windowOf s) (windowOf (putWindow r k w s)) where
  stays q j v old := by
    by_cases here : r = q ∧ k = j
    · obtain ⟨rfl, rfl⟩ := here
      obtain rfl : u = v := Option.some.inj (window.symm.trans old)
      exact ⟨w, windowOf_putWindow_same w window, keeps⟩
    · exact ⟨v, (windowOf_putWindow_other w s here).trans old, .refl v⟩
  stood q j v new := by
    rcases windowOf_putWindow window new with ⟨rfl, rfl, rfl⟩ | ⟨-, old⟩
    · exact ⟨u, window, keeps⟩
    · exact ⟨v, old, .refl v⟩

theorem SameUse.keepsItem {w w' : Window} (use : SameUse w w') : KeepsItem w w' :=
  ⟨fun _ => use.state, fun _ => ⟨use.state, by rw [use.holders]; exact id⟩⟩

theorem changeWindows_keepsItems {r : Ride} {f : List Window → List Window} {s : State}
    (touched : List.Forall₂ SameUse (look s.calendar.windows r) (f (look s.calendar.windows r))) :
    WindowsKeepItems (windowOf s) (windowOf (changeWindows r f s)) := by
  have length := touched.length_eq
  constructor
  · intro q k w old
    rw [windowOf_changeWindows]
    split
    · next same =>
      subst same
      obtain ⟨inside, rfl⟩ := List.getElem?_eq_some_iff.1 old
      exact ⟨_, List.getElem?_eq_getElem (length ▸ inside), (touched.get inside (length ▸ inside)).keepsItem⟩
    · exact ⟨w, old, .refl w⟩
  · intro q k w' new
    rw [windowOf_changeWindows] at new
    split at new
    · next same =>
      subst same
      obtain ⟨inside, rfl⟩ := List.getElem?_eq_some_iff.1 new
      exact ⟨_, List.getElem?_eq_getElem (length ▸ inside), (touched.get (length ▸ inside) inside).keepsItem⟩
    · exact ⟨w', new, .refl w'⟩

/-! ## Windows that move -/

theorem workItems_handItems (is : List WorkItem) (s : State) : (workItems (handItems is s)).Perm (is ++ workItems s) := by
  cases is with
  | nil => exact .refl _
  | cons i is =>
    simp only [handItems, workItems, List.flatten_append, List.flatten_cons, List.flatten_nil, List.append_nil,
      List.append_assoc]
    exact List.perm_append_comm_assoc ..

theorem mem_movedItems {r : Ride} {kind : WorkKind} {sel : Nat → Window → Bool} {ws : List Window} {i : WorkItem} :
    i ∈ movedItems r kind sel ws ↔ ∃ k w, ws[k]? = some w ∧ sel k w = true ∧ w.holders ≠ [] ∧ i = ⟨r, k, kind⟩ := by
  simp only [movedItems, List.mem_flatMap, List.mem_filter, Prod.exists, List.mem_zipIdx_iff_getElem?, itemFor]
  constructor
  · rintro ⟨w, k, ⟨found, chosen⟩, here⟩
    split at here
    · cases here
    · next held => exact ⟨k, w, found, chosen, by simpa using held, List.mem_singleton.1 here⟩
  · rintro ⟨k, w, found, chosen, held, rfl⟩
    exact ⟨w, k, ⟨found, chosen⟩, by simp [held]⟩

theorem flatMap_itemFor (r : Ride) (kind : WorkKind) (l : List (Window × Nat)) :
    ((l.flatMap fun x => itemFor r x.2 kind x.1).map fun i => (i.ride, i.window)).Sublist (l.map fun x => (r, x.2)) := by
  induction l with
  | nil => exact List.Sublist.refl _
  | cons x xs ih =>
    rw [List.flatMap_cons, List.map_append, List.map_cons, itemFor]
    split
    · exact ih.cons _
    · exact ih.cons_cons _

theorem nodup_movedItems (r : Ride) (kind : WorkKind) (sel : Nat → Window → Bool) (ws : List Window) :
    ((movedItems r kind sel ws).map fun i => (i.ride, i.window)).Nodup := by
  refine (flatMap_itemFor r kind _).nodup ?_
  have places : (ws.zipIdx.map fun x => (r, x.2)).Nodup := by
    rw [show (fun x : Window × Nat => (r, x.2)) = (fun k => (r, k)) ∘ Prod.snd from rfl, ← List.map_map,
      List.zipIdx_map_snd]
    exact (List.nodup_range' ..).map fun a b e => by simpa using e
  exact places.sublist (List.filter_sublist.map _)

theorem mayMove_not_left {m : Nat} {kind : WorkKind} {w : Window} (may : mayMove m kind w) : ¬w.left := by
  have before : w.state = .future ∨ w.state = .redeemable := by
    cases kind with
    | displace => exact may
    | expire => exact .inr may.1
  rintro (h | h) <;> rcases before with e | e <;> rw [e] at h <;> cases h

/-- R48: the windows that move get their items, and no other window or item is concerned. -/
theorem ItemsSound.moveWindows {m : Nat} {r : Ride} {kind : WorkKind} {sel : Nat → Window → Bool} {s : State}
    (may : ∀ k w, windowOf s r k = some w → sel k w = true → mayMove m kind w)
    (sound : ItemsSound (windowOf s) (workItems s)) :
    ItemsSound (windowOf (moveWindows r kind sel s)) (workItems (moveWindows r kind sel s)) := by
  refine ItemsSound.perm (workItems_handItems _ _).symm ?_
  show ItemsSound _ (movedItems r kind sel (look s.calendar.windows r) ++ workItems s)
  refine ⟨?once, ?named, ?listed⟩
  case once =>
    rw [List.map_append]
    refine List.nodup_append'.2 ⟨nodup_movedItems .., sound.once, ?_⟩
    intro x new old
    obtain ⟨i, hi, rfl⟩ := List.mem_map.1 new
    obtain ⟨j, hj, same⟩ := List.mem_map.1 old
    obtain ⟨k, w, found, chosen, -, rfl⟩ := mem_movedItems.1 hi
    obtain ⟨v, window, needed⟩ := sound.named j hj
    obtain ⟨rideEq, windowEq⟩ := Prod.mk.injEq .. ▸ same
    rw [rideEq, windowEq] at window
    obtain rfl : w = v := Option.some.inj (Eq.trans (Eq.symm found) window)
    exact mayMove_not_left (may k w found chosen) (WorkKind.needs_left needed)
  case named =>
    intro i here
    rcases List.mem_append.1 here with new | old
    · obtain ⟨k, w, found, chosen, -, rfl⟩ := mem_movedItems.1 new
      have window : windowOf s r k = some w := found
      refine ⟨{ w with state := kind.needs }, ?_, rfl⟩
      rw [windowOf_moveWindows, if_pos rfl, window, Option.map_some, if_pos chosen]
    · obtain ⟨w, window, needed⟩ := sound.named i old
      refine ⟨w, ?_, needed⟩
      rw [windowOf_moveWindows, window]
      split
      · next same =>
        have unchosen : ¬sel i.window w = true := fun chosen =>
          mayMove_not_left (may i.window w (same ▸ window) chosen) (WorkKind.needs_left needed)
        rw [Option.map_some, if_neg unchosen]
      · rfl
  case listed =>
    intro q k w' window left held
    rw [windowOf_moveWindows] at window
    have stood (old : windowOf s q k = some w') :
        ∃ i ∈ movedItems r kind sel (look s.calendar.windows r) ++ workItems s, i.ride = q ∧ i.window = k := by
      obtain ⟨i, here, names⟩ := sound.listed q k w' old left held
      exact ⟨i, List.mem_append_right _ here, names⟩
    split at window
    · next same =>
      subst same
      obtain ⟨w, old, rfl⟩ := Option.map_eq_some_iff.1 window
      by_cases chosen : sel k w = true
      · rw [if_pos chosen] at held
        exact ⟨⟨r, k, kind⟩, List.mem_append_left _ (mem_movedItems.2 ⟨k, w, old, chosen, held, rfl⟩), rfl, rfl⟩
      · rw [if_neg chosen] at stood
        exact stood old
    · exact stood window

/-! ## Items that move -/

/-- R115: an item that joins raises its ride's count if it is a DISPLACE item. -/
theorem look_foldl_countItem (is : List WorkItem) (d : Table 48 Nat) (r : Ride) :
    look (is.foldl countItem d) r =
      look d r + (is.filter fun i => decide (i.kind = .displace ∧ i.ride = r)).length := by
  induction is generalizing d with
  | nil => rfl
  | cons i is ih =>
    rw [List.foldl_cons, ih, countItem]
    by_cases displace : i.kind = .displace
    · by_cases ride : i.ride = r
      · simp [displace, ride]; omega
      · simp [displace, ride, look_upd]
    · simp [displace]

theorem CountsSound.join {d : Table 48 Nat} {items : List WorkItem} (is : List WorkItem) (sound : CountsSound d items) :
    CountsSound (is.foldl countItem d) (is ++ items) := by
  intro r
  rw [look_foldl_countItem, sound r, List.filter_append, List.length_append]
  omega

theorem onWalk_takeItem {w : Walker} (idle : w.item = none) : (onWalk (takeItem w)).Perm (onWalk w) := by
  unfold onWalk takeItem
  cases list : w.workList with
  | nil => simp [idle]
  | cons i rest => simp [idle]

theorem takeItem_displacing (w : Walker) : (takeItem w).displacing = w.displacing := by
  unfold takeItem
  split <;> rfl

theorem workItems_eq (s : State) : workItems s = s.out.workItems.flatten ++ onWalk s.walker := by
  simp [workItems, onWalk]

theorem completeItem_windows (i : WorkItem) (s : State) : windowOf (completeItem i s) = windowOf s := by
  obtain ⟨w, e, eq⟩ := completeItem_frame i s
  rw [eq]
  rfl

theorem completeItem_walker (i : WorkItem) (s : State) :
    (completeItem i s).walker = { s.walker with
      item := none
      displacing := if i.kind = .displace then put s.walker.displacing i.ride (look s.walker.displacing i.ride - 1)
        else s.walker.displacing } := by
  unfold completeItem
  simp only []
  split
  · split <;> rfl
  · rfl

theorem completeItem_handed (i : WorkItem) (s : State) : (completeItem i s).out.workItems = s.out.workItems := by
  obtain ⟨w, e, eq⟩ := completeItem_frame i s
  rw [eq]

theorem CountsSound.complete {i : WorkItem} {s : State} (item : s.walker.item = some i)
    (sound : CountsSound s.walker.displacing (onWalk s.walker)) :
    CountsSound (completeItem i s).walker.displacing (onWalk (completeItem i s).walker) := by
  intro r
  have before := sound r
  simp only [onWalk, item, Option.toList_some, List.filter_append, List.length_append] at before
  simp only [completeItem_walker, onWalk, Option.toList_none, List.append_nil]
  by_cases displace : i.kind = .displace
  · by_cases ride : i.ride = r
    · simp [displace, ride] at before ⊢; omega
    · simpa [displace, ride, look_put] using before
  · simpa [displace] using before

theorem ItemsSound.complete {i : WorkItem} {s : State} (item : s.walker.item = some i)
    (done : ∀ w, windowOf s i.ride i.window = some w → w.holders = []) (sound : ItemsSound (windowOf s) (workItems s)) :
    ItemsSound (windowOf (completeItem i s)) (workItems (completeItem i s)) := by
  have items : workItems s = workItems (completeItem i s) ++ [i] := by
    simp [workItems, completeItem_handed, completeItem_walker, item]
  rw [items] at sound
  rw [completeItem_windows]
  refine ⟨?_, fun j here => sound.named j (List.mem_append_left _ here), fun r k w window left held => ?_⟩
  · have once := sound.once
    rw [List.map_append] at once
    exact (List.nodup_append'.1 once).1
  · obtain ⟨j, here, rfl, rfl⟩ := sound.listed r k w window left held
    rcases List.mem_append.1 here with other | this
    · exact ⟨j, other, rfl, rfl⟩
    · obtain rfl := List.mem_singleton.1 this
      exact absurd (done w window) held

/-! ## Every act -/

theorem walkerSound_of_windows {s t : State} (sound : walkerSound s) (keep : WindowsKeepItems (windowOf s) (windowOf t))
    (phase : t.day.phase = s.day.phase) (walker : t.walker = s.walker) (handed : t.out.workItems = s.out.workItems) :
    walkerSound t := by
  rw [walkerSound_iff] at sound ⊢
  have items : workItems t = workItems s := by rw [workItems, workItems, walker, handed]
  rw [phase, walker, items]
  exact ⟨fun day => ⟨(sound.1 day).1.windows keep, (sound.1 day).2⟩, sound.2⟩

theorem Act.walkerSound {m : Nat} {s t : State} (act : Act m s t) (sound : walkerSound s) : walkerSound t := by
  have whole := walkerSound_iff.1 sound
  cases act with
  | same same =>
    have items : workItems t = workItems s := by
      rw [workItems, workItems, same.handed, same.workList, same.item]
    have windows : windowOf t = windowOf s := funext₂ fun r k => same.windowOf r k
    unfold Machine.walkerSound at sound ⊢
    rw [same.phase, same.workList, same.item, same.displacing, items, windows]
    exact sound
  | gone gone =>
    refine walkerSound_iff.2 ⟨fun day => ?_, fun _ => ⟨gone.workList, gone.item, gone.displacing⟩⟩
    rw [gone.phase] at day
    cases day
  | clockSet | passesSet | leavesFlex => exact sound
  | phaseMoves p day day' =>
    refine walkerSound_iff.2 ⟨fun _ => whole.1 day, fun night => ?_⟩
    exact Bool.noConfusion (day'.symm.trans night)
  | checkBegins before => exact walkerSound_iff.2 ⟨fun day => (nomatch day), fun _ => whole.2 (by rw [before]; rfl)⟩
  | checkEnds before => exact walkerSound_iff.2 ⟨fun day => (nomatch day), fun _ => whole.2 (by rw [before]; rfl)⟩
  | windowsTouched r f touched => exact walkerSound_of_windows sound (changeWindows_keepsItems touched) rfl rfl rfl
  | windowOpens window future =>
    refine walkerSound_of_windows sound (putWindow_keepsItems window ?_) rfl rfl rfl
    refine .of_open (Window.not_left_of_future future) ?_
    rintro (h | h) <;> cases h
  | windowsMove r kind sel may =>
    have moved := moveWindows_frame r kind sel s
    refine walkerSound_iff.2 ⟨fun day => ?_, fun night => ?_⟩
    · obtain ⟨o, eq⟩ := moved
      have day' : inDay s.day.phase = true := by rw [eq] at day; exact day
      refine ⟨(whole.1 day').1.moveWindows may, ?_⟩
      rw [eq]
      exact (whole.1 day').2
    · obtain ⟨o, eq⟩ := moved
      rw [eq] at night ⊢
      exact whole.2 night
  | grant window future =>
    refine walkerSound_of_windows sound (putWindow_keepsItems window ?_) rfl rfl rfl
    exact .of_open (Window.not_left_of_future future) (Window.not_left_of_future future)
  | @shift r k j w v h rest f window holders there future differ =>
    have out : KeepsItem w (moveOut h rest w) := .of_held rfl (by simp [holders])
    have into : KeepsItem v (placeIn h v) :=
      .of_open (Window.not_left_of_future future) (Window.not_left_of_future future)
    have there' : windowOf (putWindow r k (moveOut h rest w) s) r j = some v :=
      (windowOf_putWindow_other _ s (by omega)).trans there
    have first : Machine.walkerSound (putWindow r k (moveOut h rest w) s) :=
      walkerSound_of_windows sound (putWindow_keepsItems window out) rfl rfl rfl
    exact walkerSound_of_windows first (putWindow_keepsItems there' into) rfl rfl rfl
  | flexed window holders =>
    refine walkerSound_of_windows sound (putWindow_keepsItems window ?_) rfl rfl rfl
    exact .of_held rfl (by simp [holders])
  | @leaves r k w w' h window found left =>
    refine walkerSound_of_windows sound (putWindow_keepsItems window ?_) rfl rfl rfl
    have held : w.holders ≠ [] := fun none => by simp [none, holderIn] at found
    cases left <;> exact .of_held rfl held
  | itemsDropped night => exact walkerSound_iff.2 ⟨fun day => Bool.noConfusion (day.symm.trans night), fun _ => whole.2 night⟩
  | @itemsJoin before after is day handed =>
    refine walkerSound_iff.2 ⟨fun _ => ?_, fun night => Bool.noConfusion (day.symm.trans night)⟩
    obtain ⟨items, counts⟩ := whole.1 day
    refine ⟨items.perm ?_, (counts.join is).perm ?_⟩
    · simp only [workItems, handed, List.flatten_append, List.flatten_cons]
      grind
    · simp only [onWalk]
      grind
  | itemTaken idle =>
    have taken := onWalk_takeItem idle
    refine walkerSound_iff.2 ⟨fun day => ?_, fun night => ?_⟩
    · obtain ⟨items, counts⟩ := whole.1 day
      refine ⟨items.perm ?_, ?_⟩
      · rw [workItems_eq, workItems_eq]
        exact (taken.append_left _).symm
      · show CountsSound (takeItem s.walker).displacing _
        rw [takeItem_displacing]
        exact counts.perm taken.symm
    · obtain ⟨list, item, counts⟩ := whole.2 night
      have same : takeItem s.walker = { s.walker with item := none } := by
        unfold takeItem
        split
        · rfl
        · next some => rw [list] at some; cases some
      show atRest (takeItem s.walker)
      rw [same]
      exact ⟨list, rfl, counts⟩
  | @itemCompletes i item done =>
    have phase : (completeItem i s).day.phase = s.day.phase := by
      obtain ⟨w, e, eq⟩ := completeItem_frame i s
      rw [eq]
    rw [walkerSound_iff, phase]
    refine ⟨fun day => ⟨(whole.1 day).1.complete item done, (whole.1 day).2.complete item⟩, fun night => ?_⟩
    have idle := (whole.2 night).2.1
    rw [item] at idle
    cases idle

/-- R10: the windows of a passed check have no holders, and no item is outstanding. -/
theorem DayOpened.walkerSound {s t : State} (opened : DayOpened s t) (sound : walkerSound s) : walkerSound t := by
  obtain ⟨list, item, counts⟩ := sound.2 (by rw [opened.checking]; rfl)
  have none : workItems t = [] := by
    simp [workItems, opened.handed, opened.workList, opened.item, list, item]
  refine walkerSound_iff.2 ⟨fun _ => ⟨⟨by simp [none], by simp [none], fun r k w window _ held => ?_⟩, fun r => ?_⟩,
    fun night => Bool.noConfusion (opened.phase.symm.trans night)⟩
  · exact absurd (opened.windows r w (List.mem_of_getElem? window)).1 held
  · simp [opened.displacing, onWalk, opened.workList, opened.item, list, item, counts]

/-- Settles O59: act by act; windows get their items as they move, items move to the Walker, and an item completes when its
window has no holder left. -/
theorem walkerSoundKept : Obligations.WalkerSoundKept := by
  unfold Obligations.WalkerSoundKept
  intro s t sound stepped
  exact step_keeps (P := walkerSound) (fun _ _ h => h) (fun m s t h act => act.walkerSound h)
    (fun s t h opened => opened.walkerSound h) sound stepped

end Sys2Proof.Machine
end

section
/-! PROOFS. Chapters 3 and 4 together: what every step keeps of the agreement between the Guest Table and the holder lists
(O60). -/

namespace Sys2Proof.Machine

/-! ## Passes and lists -/

/-- R58, R63: every pass stands with its party in the list of its place, every entry of a list is such a pass, and no list
holds a credential twice. -/
structure Agree (lists : Ride → PassPlace → List Holder) (pass : Credential → Ride → Option Pass) : Prop where
  placed : ∀ c r p, pass c r = some p → (⟨c, p.party⟩ : Holder) ∈ lists r p.place
  once : ∀ r x, ((lists r x).map Holder.credential).Nodup
  passes : ∀ r x, ∀ h ∈ lists r x, ∃ p, pass h.credential r = some p ∧ p.place = x ∧ p.party = h.party

/-- The holder list or flex list of a place. -/
def listAt (s : State) (r : Ride) : PassPlace → List Holder
  | .window k => (windowOf s r k).elim [] Window.holders
  | .flex => look s.calendar.flex r

/-- A guest's pass for a ride. -/
def passAt (s : State) (c : Credential) (r : Ride) : Option Pass := passOf c r s.guests

theorem holdingsAgree_iff {s : State} : holdingsAgree s ↔ Agree (listAt s) (passAt s) := by
  constructor
  · rintro ⟨placed, windows, flex⟩
    refine ⟨fun c r p found => ?_, fun r x => ?_, fun r x => ?_⟩
    · obtain ⟨inWindow, inFlex⟩ := placed c r p found
      cases place : p.place with
      | window k =>
        obtain ⟨w, window, here⟩ := inWindow k place
        simpa [listAt, window] using here
      | flex => exact inFlex place
    · cases x with
      | window k =>
        cases window : windowOf s r k with
        | none => simp [listAt, window]
        | some w => simpa [listAt, window] using (windows r k w window).1
      | flex => exact (flex r).1
    · cases x with
      | window k =>
        cases window : windowOf s r k with
        | none => simp [listAt, window]
        | some w => simpa [listAt, window, passAt] using (windows r k w window).2
      | flex => exact (flex r).2
  · rintro ⟨placed, once, passes⟩
    refine ⟨fun c r p found => ⟨fun k place => ?_, fun place => ?_⟩, fun r k w window => ⟨?_, ?_⟩, fun r => ⟨?_, ?_⟩⟩
    · have here := placed c r p found
      rw [place] at here
      cases window : windowOf s r k with
      | none => simp [listAt, window] at here
      | some w => exact ⟨w, rfl, by simpa [listAt, window] using here⟩
    · have here := placed c r p found
      rw [place] at here
      exact here
    · simpa [listAt, window] using once r (.window k)
    · simpa [listAt, window, passAt] using passes r (.window k)
    · exact once r .flex
    · exact passes r .flex

/-- Nothing agrees with nothing. -/
theorem Agree.empty {lists : Ride → PassPlace → List Holder} {pass : Credential → Ride → Option Pass}
    (noList : ∀ r x, lists r x = []) (noPass : ∀ c r, pass c r = none) : Agree lists pass where
  placed c r p found := by rw [noPass] at found; cases found
  once r x := by rw [noList]; exact List.nodup_nil
  passes r x h here := by rw [noList] at here; cases here

/-- A pass leaves the lists and the table. -/
theorem Agree.drop {lists : Ride → PassPlace → List Holder} {pass : Credential → Ride → Option Pass} {r : Ride}
    {x : PassPlace} {h : Holder} {rest : List Holder} (agree : Agree lists pass) (leaves : (lists r x).Perm (h :: rest)) :
    Agree (fun q y => if q = r ∧ y = x then rest else lists q y)
      (fun d q => if d = h.credential ∧ q = r then none else pass d q) := by
  have once := ((leaves.map Holder.credential).nodup_iff.1 (agree.once r x))
  rw [List.map_cons, List.nodup_cons] at once
  obtain ⟨away, restOnce⟩ := once
  obtain ⟨p, pass_h, place_h, -⟩ := agree.passes r x h (leaves.mem_iff.2 List.mem_cons_self)
  refine ⟨fun d q p' found => ?_, fun q y => ?_, fun q y g here => ?_⟩
  · split at found
    · cases found
    · next other =>
      have here := agree.placed d q p' found
      split
      · next there =>
        obtain ⟨rfl, place⟩ := there
        rw [place] at here
        rcases List.mem_cons.1 (leaves.mem_iff.1 here) with this | later
        · exact absurd ⟨congrArg Holder.credential this, rfl⟩ other
        · exact later
      · exact here
  · split
    · exact restOnce
    · exact agree.once q y
  · split at here
    · next there =>
      obtain ⟨rfl, rfl⟩ := there
      have differ : g.credential ≠ h.credential := fun e => away (e ▸ List.mem_map_of_mem here)
      rw [if_neg fun e => differ e.1]
      exact agree.passes q y g (leaves.mem_iff.2 (List.mem_cons_of_mem _ here))
    · next elsewhere =>
      obtain ⟨p', found, place, party⟩ := agree.passes q y g here
      rw [if_neg]
      · exact ⟨p', found, place, party⟩
      · rintro ⟨same, rfl⟩
        rw [same, pass_h] at found
        cases found
        exact elsewhere ⟨rfl, place.symm.trans place_h⟩

/-- A new pass joins the lists and the table. -/
theorem Agree.add {lists : Ride → PassPlace → List Holder} {pass : Credential → Ride → Option Pass} {r : Ride}
    {x : PassPlace} {h : Holder} {p : Pass} (agree : Agree lists pass) (fresh : pass h.credential r = none)
    (place : p.place = x) (party : p.party = h.party) :
    Agree (fun q y => if q = r ∧ y = x then lists q y ++ [h] else lists q y)
      (fun d q => if d = h.credential ∧ q = r then some p else pass d q) := by
  refine ⟨fun d q p' found => ?_, fun q y => ?_, fun q y g here => ?_⟩
  · split at found
    · next this =>
      obtain ⟨rfl, rfl⟩ := this
      cases found
      rw [if_pos ⟨rfl, place⟩, party]
      exact List.mem_append_right _ List.mem_cons_self
    · have here := agree.placed d q p' found
      split
      · exact List.mem_append_left _ here
      · exact here
  · split
    · next there =>
      obtain ⟨rfl, rfl⟩ := there
      rw [List.map_append, List.map_cons, List.map_nil]
      refine List.nodup_append'.2 ⟨agree.once q y, List.nodup_singleton _, ?_⟩
      intro c old new
      obtain ⟨g, here, rfl⟩ := List.mem_map.1 old
      obtain ⟨p', found, -, -⟩ := agree.passes q y g here
      rw [List.mem_singleton.1 new, fresh] at found
      cases found
    · exact agree.once q y
  · have old (here : g ∈ lists q y) : ∃ p', (if g.credential = h.credential ∧ q = r then some p else pass g.credential q) =
        some p' ∧ p'.place = y ∧ p'.party = g.party := by
      obtain ⟨p', found, rest⟩ := agree.passes q y g here
      refine ⟨p', ?_, rest⟩
      rw [if_neg, found]
      rintro ⟨same, rfl⟩
      rw [same, fresh] at found
      cases found
    split at here
    · next there =>
      obtain ⟨rfl, rfl⟩ := there
      rcases List.mem_append.1 here with here | new
      · exact old here
      · obtain rfl := List.mem_singleton.1 new
        exact ⟨p, if_pos ⟨rfl, rfl⟩, place, party⟩
    · exact old here

/-- A pass moves from the head of one list to the tail of another. -/
theorem Agree.move {lists : Ride → PassPlace → List Holder} {pass : Credential → Ride → Option Pass} {r : Ride}
    {x y : PassPlace} {h : Holder} {rest : List Holder} {f : Pass → Pass} (agree : Agree lists pass)
    (head : lists r x = h :: rest) (differ : x ≠ y) (moves : ∀ p, (f p).party = p.party ∧ (f p).place = y) :
    Agree (fun q z => if q = r ∧ z = y then lists q z ++ [h] else if q = r ∧ z = x then rest else lists q z)
      (fun d q => if d = h.credential ∧ q = r then (pass d q).map f else pass d q) := by
  obtain ⟨p, found, -, party⟩ := agree.passes r x h (head ▸ List.mem_cons_self)
  have left := agree.drop (.of_eq head)
  have joined := left.add (h := h) (p := f p) (x := y) (if_pos ⟨rfl, rfl⟩) (moves p).2 ((moves p).1.trans party)
  convert joined using 1
  · funext q z
    split
    · next there => rw [if_neg fun e => differ (e.2.symm.trans there.2)]
    · rfl
  · funext d q
    split
    · next there => rw [there.1, there.2, found, Option.map_some]
    · rfl

/-! ## The passes of a changed table -/

theorem passIn_append (r : Ride) (ps : List Pass) (p : Pass) :
    passIn r (ps ++ [p]) = (passIn r ps).or (if p.ride = r then some p else none) := by
  by_cases h : p.ride = r <;> simp [passIn, h]

theorem passOf_addPass {gs : List Guest} (asc : Ascending gs) {c : Credential} {p : Pass}
    (fresh : passOf c p.ride gs = none) (d : Credential) (q : Ride) :
    passOf d q (addPass c p gs) = if d = c ∧ q = p.ride then some p else passOf d q gs := by
  by_cases same : d = c
  · subst same
    have old : passOf d q (addPass d p gs) = (passOf d q gs).or (if p.ride = q then some p else none) := by
      rw [passOf, guestOf_addPass_same asc, Option.bind_some, joined, passIn_append, passOf]
      cases guestOf d gs <;> rfl
    rw [old]
    by_cases ride : q = p.ride
    · subst ride
      rw [fresh]
      simp
    · rw [if_neg (Ne.symm ride), if_neg fun e => ride e.2, Option.or_none]
  · rw [if_neg fun e => same e.1, passOf, guestOf_addPass_other asc p same, passOf]

theorem passIn_filter (q r : Ride) (ps : List Pass) :
    passIn q (ps.filter fun p => p.ride != r) = if q = r then none else passIn q ps := by
  split
  · next same =>
    subst same
    rw [passIn_eq_none]
    intro p hp
    simpa using (List.mem_filter.1 hp).2
  · next differ =>
    unfold passIn
    rw [List.find?_filter]
    congr 1
    funext p
    by_cases ride : p.ride = q
    · simp [ride, differ]
    · simp [ride]

theorem passOf_dropPass {gs : List Guest} (asc : Ascending gs) (c : Credential) (r : Ride) (d : Credential) (q : Ride) :
    passOf d q (dropPass c r gs) = if d = c ∧ q = r then none else passOf d q gs := by
  by_cases same : d = c
  · subst same
    have left : passOf d q (dropPass d r gs) = (guestOf d gs).bind fun g => passIn q (g.passes.filter fun p => p.ride != r) := by
      ext p
      simp only [passOf, Option.bind_eq_some_iff]
      constructor
      · rintro ⟨x, found, there⟩
        obtain ⟨g, found', rfl, -⟩ := (guestOf_dropPass_same asc).1 found
        exact ⟨g, found', there⟩
      · rintro ⟨g, found, there⟩
        refine ⟨⟨d, g.passes.filter fun p => p.ride != r⟩, (guestOf_dropPass_same asc).2 ⟨g, found, rfl, ?_⟩, there⟩
        exact List.ne_nil_of_mem (List.mem_of_find?_eq_some there)
    rw [left, passOf]
    simp only [passIn_filter, true_and]
    split
    · cases guestOf d gs <;> rfl
    · rfl
  · rw [if_neg fun e => same e.1, passOf, guestOf_dropPass_other asc r same, passOf]

theorem passIn_map {r q : Ride} {f : Pass → Pass} (ride : ∀ p, (f p).ride = p.ride) (ps : List Pass) :
    passIn q (ps.map fun p => if p.ride = r then f p else p) = if q = r then (passIn q ps).map f else passIn q ps := by
  induction ps with
  | nil => simp [passIn]
  | cons p ps ih =>
    have test : (if p.ride = r then f p else p).ride = p.ride := by
      split
      · exact ride p
      · rfl
    unfold passIn at ih ⊢
    rw [List.map_cons, List.find?_cons, List.find?_cons, test]
    by_cases here : p.ride = q
    · simp only [here, beq_self_eq_true]
      split <;> rfl
    · simp only [beq_eq_false_iff_ne.2 here]
      exact ih

theorem guestOf_changePass (c d : Credential) (r : Ride) (f : Pass → Pass) (gs : List Guest) :
    guestOf d (changePass c r f gs) = (guestOf d gs).map fun g =>
      if g.credential = c then { g with passes := g.passes.map fun p => if p.ride = r then f p else p } else g := by
  unfold guestOf changePass
  rw [List.find?_map]
  congr 2
  funext g
  simp only [Function.comp_apply]
  split <;> rfl

theorem passOf_changePass {c : Credential} {r : Ride} {f : Pass → Pass} (ride : ∀ p, (f p).ride = p.ride) (gs : List Guest)
    (d : Credential) (q : Ride) : passOf d q (changePass c r f gs) =
      if d = c ∧ q = r then (passOf d q gs).map f else passOf d q gs := by
  rw [passOf, guestOf_changePass, passOf]
  cases found : guestOf d gs with
  | none => simp
  | some g =>
    have credential : g.credential = d := by simpa using List.find?_some found
    simp only [Option.map_some, Option.bind_some, credential]
    by_cases same : d = c
    · simp only [same, if_true, true_and]
      exact passIn_map ride g.passes
    · simp only [same, if_false, false_and]

/-! ## The lists of a changed calendar -/

theorem listAt_putWindow {r : Ride} {k : Nat} {u : Window} {s : State} (w : Window) (window : windowOf s r k = some u)
    (q : Ride) (x : PassPlace) :
    listAt (putWindow r k w s) q x = if q = r ∧ x = .window k then w.holders else listAt s q x := by
  cases x with
  | flex => simp [listAt, putWindow]
  | window j =>
    simp only [listAt, PassPlace.window.injEq]
    split
    · next here =>
      obtain ⟨rfl, rfl⟩ := here
      rw [windowOf_putWindow_same w window, Option.elim_some]
    · next other => rw [windowOf_putWindow_other w s fun e => other ⟨e.1.symm, e.2.symm⟩]

theorem listAt_changeFlex (r : Ride) (f : List Holder → List Holder) (s : State) (q : Ride) (x : PassPlace) :
    listAt (changeFlex r f s) q x = if q = r ∧ x = .flex then f (listAt s q x) else listAt s q x := by
  cases x with
  | window k => simp [listAt, windowOf_changeFlex]
  | flex =>
    simp only [listAt, changeFlex_flex, look_upd, and_true]
    by_cases same : q = r
    · subst same; simp
    · rw [if_neg same, if_neg (Ne.symm same)]

/-- Windows that keep their holders keep the lists. -/
theorem listAt_of_windows {s t : State} (flex : t.calendar.flex = s.calendar.flex)
    (windows : ∀ r k, (windowOf t r k).map Window.holders = (windowOf s r k).map Window.holders) : listAt t = listAt s := by
  funext r x
  cases x with
  | flex => rw [listAt, listAt, flex]
  | window k =>
    have same := windows r k
    simp only [listAt]
    cases h : windowOf t r k <;> cases h' : windowOf s r k <;> simp_all

/-! ## Every act -/

/-- The holdings agree with a sound Guest Table that is empty at night. -/
structure HoldingsSound (s : State) : Prop where
  table : guestTableWf s
  night : nightIsEmpty s
  agree : Agree (listAt s) (passAt s)

theorem passAt_of_room {limit : Nat} {c : Credential} {r : Ride} {s : State}
    (room : guestRefusal limit c r s.guests = none) : passAt s c r = none := by
  have joins := (guestRefusal_eq_none.1 room).1
  rw [passAt, passOf]
  cases found : guestOf c s.guests with
  | none => rfl
  | some g => exact passIn_eq_none.2 (joins g found).1

theorem holders_perm {c : Credential} {hs : List Holder} {h : Holder} (found : holderIn c hs = some h) :
    hs.Perm (h :: withoutHolder c hs) := by
  obtain ⟨before, after, rfl, without, -⟩ := holderIn_split found
  rw [without]
  exact List.perm_middle

theorem HolderLeft.perm {w w' : Window} {h : Holder} (found : holderIn h.credential w.holders = some h)
    (left : HolderLeft h w w') : w.holders.Perm (h :: w'.holders) := by
  cases left with
  | expired rest holders => rw [holders]; exact .refl _
  | removed => exact holders_perm found
  | redeemed => exact holders_perm found

theorem Act.agree {m : Nat} {s t : State} (act : Act m s t) (sound : HoldingsSound s) : Agree (listAt t) (passAt t) := by
  obtain ⟨⟨asc, -, -⟩, -, agree⟩ := sound
  have unmoved {t : State} (lists : listAt t = listAt s) (guests : t.guests = s.guests) : Agree (listAt t) (passAt t) := by
    have pass : passAt t = passAt s := by funext c r; rw [passAt, passAt, guests]
    rw [lists, pass]
    exact agree
  cases act with
  | same same =>
    exact unmoved (listAt_of_windows same.flex fun r k => by rw [same.windowOf r k]) same.guests
  | gone gone =>
    refine .empty (fun r x => ?_) fun c r => ?_
    · cases x with
      | window k => simp [listAt, windowOf, gone.windows]
      | flex => exact gone.flex r
    · rw [passAt, gone.guests]
      rfl
  | windowsTouched r f touched =>
    refine unmoved (listAt_of_windows rfl fun q k => ?_) rfl
    rw [windowOf_changeWindows]
    split
    · next same =>
      subst same
      rw [windowOf]
      have length := touched.length_eq
      rcases Nat.lt_or_ge k (look s.calendar.windows r).length with inside | beyond
      · have use := touched.get inside (length ▸ inside)
        rw [List.getElem?_eq_getElem inside, List.getElem?_eq_getElem (length ▸ inside)]
        exact congrArg some use.holders
      · rw [List.getElem?_eq_none beyond, List.getElem?_eq_none (length ▸ beyond)]
    · rfl
  | @windowOpens r k w window =>
    refine unmoved (funext₂ fun q x => ?_) rfl
    rw [listAt_putWindow _ window]
    split
    · next here => rw [here.1, here.2]; simp [listAt, window]
    · rfl
  | windowsMove r kind sel =>
    obtain ⟨o, eq⟩ := moveWindows_frame r kind sel s
    refine unmoved (listAt_of_windows (by rw [eq]; rfl) fun q k => ?_) (by rw [eq]; rfl)
    rw [windowOf_moveWindows]
    split
    · rw [Option.map_map]
      congr 1
      funext w
      simp only [Function.comp_apply]
      split <;> rfl
    · rfl
  | @grant r k w c p window future notZero notOnes room ride place =>
    subst ride
    have fresh := passAt_of_room room
    have joined := agree.add (r := p.ride) (h := ⟨c, p.party⟩) (p := p) fresh place rfl
    convert joined using 1
    · funext q x
      refine (listAt_putWindow _ window q x).trans ?_
      split
      · next here => rw [here.1, here.2]; simp [listAt, window, placeIn]
      · rfl
    · funext d q
      exact passOf_addPass asc fresh d q
  | @shift r k j w v h rest f window holders there future differ keeps =>
    have head : listAt s r (.window k) = h :: rest := by simp [listAt, window, holders]
    have moved := agree.move (y := .window j) head (by simpa using differ) fun p => (keeps p).2
    have there' : windowOf (putWindow r k (moveOut h rest w) s) r j = some v :=
      (windowOf_putWindow_other _ s (by omega)).trans there
    convert moved using 1
    · funext q x
      refine (listAt_putWindow _ there' q x).trans ?_
      split
      · next here => rw [here.1, here.2]; simp [listAt, there, placeIn]
      · exact listAt_putWindow _ window q x
    · funext d q
      exact passOf_changePass (fun p => (keeps p).1) s.guests d q
  | @flexed r k w h rest f window holders keeps =>
    have head : listAt s r (.window k) = h :: rest := by simp [listAt, window, holders]
    have moved := agree.move (y := .flex) head (by simp) fun p => (keeps p).2
    convert moved using 1
    · funext q x
      refine (listAt_changeFlex ..).trans ?_
      have out := listAt_putWindow (moveOut h rest w) window q x
      split
      · next here => rw [out, if_neg (by simp [here.2])]
      · exact out
    · funext d q
      exact passOf_changePass (fun p => (keeps p).1) s.guests d q
  | @leaves r k w w' h window found left =>
    have gone := agree.drop (r := r) (x := .window k) (rest := w'.holders) (h := h)
      (by simpa [listAt, window] using left.perm found)
    convert gone using 1
    · funext q x
      exact listAt_putWindow _ window q x
    · funext d q
      exact passOf_dropPass asc ..
  | @leavesFlex r c h found =>
    obtain rfl := holderIn_credential found
    have gone := agree.drop (r := r) (x := .flex) (holders_perm found)
    convert gone using 1
    · funext q x
      refine (listAt_changeFlex ..).trans ?_
      split
      · next here => rw [here.1, here.2]
      · rfl
    · funext d q
      exact passOf_dropPass asc ..
  | @itemCompletes i =>
    obtain ⟨w, e, eq⟩ := completeItem_frame i s
    rw [eq]
    exact unmoved rfl rfl
  | clockSet | passesSet | phaseMoves | checkBegins | checkEnds | itemsDropped | itemsJoin | itemTaken =>
    exact unmoved rfl rfl

/-- Settles O60: a grant puts a new pass on both sides, a shift or a displacement to the flex list moves it on both, and a
redemption, a removal or an expiry takes it from both. -/
theorem holdingsAgreeKept : Obligations.HoldingsAgreeKept := by
  unfold Obligations.HoldingsAgreeKept
  intro s t table night agree stepped
  have kept : HoldingsSound t := by
    refine step_keeps (P := HoldingsSound) (fun s cs sound => ⟨sound.table, sound.night, sound.agree⟩) ?act ?opened
      ⟨table, night, holdingsAgree_iff.1 agree⟩ stepped
    case act => exact fun m s t sound act => ⟨act.guestTableWf sound.table, act.nightIsEmpty sound.night, act.agree sound⟩
    case opened =>
      intro s t sound opened
      have none : t.guests = [] := opened.guests.trans (sound.night (by rw [opened.checking]; rfl)).2.1
      refine ⟨?_, fun night => Bool.noConfusion (opened.phase.symm.trans night), .empty (fun r x => ?_) fun c r => ?_⟩
      · unfold guestTableWf
        rw [none]
        exact ⟨List.Pairwise.nil, by simp, by simp⟩
      · cases x with
        | window k =>
          cases window : windowOf t r k with
          | none => simp [listAt, window]
          | some w => simpa [listAt, window] using (opened.windows r w (List.mem_of_getElem? window)).1
        | flex => exact opened.flex r
      · rw [passAt, none]
        rfl
  exact holdingsAgree_iff.2 kept.agree

end Sys2Proof.Machine
end

section
/-! PROOFS. The limits that every operation keeps: the places of the queues (O55), and the pass credits, the run counter, the
mark lists and the head counts (O57). -/

namespace Sys2Proof.Machine

/-- What held of the queues and of the counters holds still. -/
structure KeepsLimits (s t : State) : Prop where
  queues : queuesBounded s → queuesBounded t
  counters : countersWf s → countersWf t

namespace KeepsLimits

theorem refl (s : State) : KeepsLimits s s := ⟨id, id⟩

theorem trans {s t u : State} (h : KeepsLimits s t) (h' : KeepsLimits t u) : KeepsLimits s u :=
  ⟨fun x => h'.queues (h.queues x), fun x => h'.counters (h.counters x)⟩

/-- The later change first, so that the state between the two is known. -/
theorem after {s t u : State} (h' : KeepsLimits t u) (h : KeepsLimits s t) : KeepsLimits s u := h.trans h'

/-! ## The ports -/

theorem setPort {s : State} {p : Port} {ps : PortState} (bounded : portBounded (portOf s p) → portBounded ps) :
    KeepsLimits s (setPort s p ps) := by
  cases p with
  | field => exact ⟨fun ⟨field, trunk, rest⟩ => ⟨bounded field, trunk, rest⟩, id⟩
  | trunk => exact ⟨fun ⟨field, trunk, rest⟩ => ⟨field, bounded trunk, rest⟩, id⟩

theorem writeFrame {s : State} {p : Port} (f : PartFrame) (room : (portOf s p).partQueue.length < 128) :
    KeepsLimits s (writeFrame p f s) := by
  refine setPort fun ⟨received, relayed, _⟩ => ⟨received, relayed, ?_⟩
  rw [List.length_append, List.length_singleton]
  exact room

theorem beginWait (p : Port) (w : Producer) (s : State) : KeepsLimits s (beginWait p w s) := setPort id

theorem endWait (p : Port) (w : Producer) (s : State) : KeepsLimits s (endWait p w s) := setPort id

theorem room_of_hasRoom {ps : PortState} (room : hasRoom ps = true) : ps.partQueue.length < 128 := by
  have := of_decide_eq_true room
  rw [Config.partPlaces] at this
  omega

theorem room_of_hasTurn {ps : PortState} {w : Producer} (turn : hasTurn ps w = true) : ps.partQueue.length < 128 := by
  rw [hasTurn, Bool.and_eq_true] at turn
  exact of_decide_eq_true turn.2

theorem writeAll (w : Producer) (fs : List (Port × PartFrame)) (s : State) : KeepsLimits s (writeAll w fs s).1 := by
  induction fs generalizing s with
  | nil => exact refl s
  | cons x rest ih =>
    obtain ⟨p, f⟩ := x
    unfold Machine.writeAll
    split
    · next room => exact (writeFrame f (room_of_hasRoom room)).trans (ih _)
    · exact beginWait p w s

theorem send (w : Producer) (box new : List (Port × PartFrame)) (s : State) : KeepsLimits s (send w box new s).1 := by
  cases box with
  | nil => exact writeAll w new s
  | cons x xs => exact refl s

/-- A waiting producer writes after its wait. -/
theorem writeAfterWait {s : State} {p : Port} {w : Producer} (f : PartFrame) (turn : hasTurn (portOf s p) w = true) :
    KeepsLimits s (Machine.writeFrame p f (Machine.endWait p w s)) := by
  refine (endWait p w s).trans (writeFrame f ?_)
  simpa [Machine.endWait] using room_of_hasTurn turn

theorem resume {w : Producer} {box : List (Port × PartFrame)} {s : State} (can : canResume w box s = true) :
    KeepsLimits s (resume w box s).1 := by
  rcases box with _ | ⟨⟨p, f⟩, rest⟩
  · cases can
  · exact (writeAfterWait f can).trans (writeAll ..)

/-! ## The Pass Engine -/

theorem engineSend (fs : List (Port × PartFrame)) (s : State) : KeepsLimits s (engineSend fs s) :=
  (send .passEngine s.engine.outbox fs s).trans ⟨id, id⟩

theorem setQueue {p : Port} {qs : List Request} {s : State} (places : (queueOfPort s p).length ≤ queuePlaces p →
    qs.length ≤ queuePlaces p) : KeepsLimits s (setQueue p qs s) := by
  cases p with
  | field => exact ⟨fun ⟨a, b, c, d, kiosk, rest⟩ => ⟨a, b, c, d, places kiosk, rest⟩, id⟩
  | trunk => exact ⟨fun ⟨a, b, c, d, kiosk, remote, held⟩ => ⟨a, b, c, d, kiosk, places remote, held⟩, id⟩

theorem setHeld {es : List HeldEntry} {s : State} (places : s.engine.heldList.length ≤ 8 → es.length ≤ 8) :
    KeepsLimits s { s with engine := { s.engine with heldList := es } } :=
  ⟨fun ⟨a, b, c, d, kiosk, remote, held⟩ => ⟨a, b, c, d, kiosk, remote, places held⟩, id⟩

theorem answerFull (q : Request) (s : State) : KeepsLimits s (answerFull q s) := by
  unfold Machine.answerFull
  simp only []
  split
  · next room => exact writeFrame _ (room_of_hasRoom room)
  · exact (beginWait ..).trans (setPort id)

theorem joinQueue (q : Request) (s : State) : KeepsLimits s (joinQueue q s) := by
  unfold Machine.joinQueue
  split
  · next room =>
    refine setQueue fun _ => ?_
    rw [List.length_append, List.length_singleton]
    exact room
  · exact answerFull q s

theorem sortRequest (q : Request) (s : State) : KeepsLimits s (sortRequest q s) := by
  unfold Machine.sortRequest
  split
  · exact setPort id
  · exact joinQueue q s

theorem writeFull {p : Port} (f : PartFrame) {s : State} (turn : hasTurn (portOf s p) .requestIntake = true) :
    KeepsLimits s (writeFull p f s) := by
  have written := (writeAfterWait f turn).trans
    (setPort (s := Machine.writeFrame p f (Machine.endWait p .requestIntake s)) (p := p)
      (ps := { portOf (Machine.writeFrame p f (Machine.endWait p .requestIntake s)) p with
        fullReply := none, heldRequest := none }) id)
  unfold Machine.writeFull
  simp only []
  split
  · exact written
  · exact written.trans (joinQueue ..)

theorem countServe (o : Origin) (s : State) : KeepsLimits s { s with engine := countServe o s.engine } := by
  unfold Machine.countServe
  split
  · exact ⟨id, fun ⟨rides, run, standbys⟩ => ⟨rides, Nat.min_le_left .., standbys⟩⟩
  · exact ⟨id, fun ⟨rides, run, standbys⟩ => ⟨rides, by simp, standbys⟩⟩

theorem replyFromQueue (o : Origin) (q : Request) (x : PassResult) (s : State) : KeepsLimits s (replyFromQueue o q x s) :=
  (countServe o s).trans (engineSend ..)

theorem setAside (o : Origin) (q : Request) (r : Ride) (s : State) : KeepsLimits s (setAside o q r s) := by
  unfold Machine.setAside
  split
  · next room =>
    refine setHeld fun _ => ?_
    rw [List.length_append, List.length_singleton]
    exact room
  · exact replyFromQueue ..

theorem judgeRequest (o : Origin) (c : Credential) (party count : Nat) (labels : List Label) (e l : Option Nat) (s : State) :
    KeepsLimits s (judgeRequest o c party count labels e l s).2 := by
  obtain ⟨ca, g, m, f, h⟩ := judgeRequest_frame o c party count labels e l s
  rw [h]
  exact ⟨id, id⟩

theorem serveCancel (c : Credential) (l : Label) (s : State) : KeepsLimits s (serveCancel c l s).2 := by
  obtain ⟨ca, g, m, h⟩ := serveCancel_frame c l s
  rw [h]
  exact ⟨id, id⟩

theorem servePassRequest (o : Origin) (q : Request) (c : Credential) (party count : Nat) (labels : List Label)
    (e l : Option Nat) (s : State) : KeepsLimits s (servePassRequest o q c party count labels e l s) := by
  have judged := judgeRequest o c party count labels e l s
  unfold Machine.servePassRequest
  split
  · next heq =>
    rw [heq] at judged
    exact judged.trans (replyFromQueue ..)
  · next heq =>
    rw [heq] at judged
    exact judged.trans (setAside ..)

/-- R91: an entry that is set aside again takes the place that it left. -/
theorem serveHeldEntry {i : Nat} (e : HeldEntry) {s : State} (inside : i < s.engine.heldList.length) :
    KeepsLimits s (serveHeldEntry i e s) := by
  have left : KeepsLimits s { s with engine := { s.engine with heldList := s.engine.heldList.eraseIdx i } } :=
    setHeld fun places => (List.length_eraseIdx_le ..).trans places
  unfold Machine.serveHeldEntry
  simp only []
  split
  · next c party count labels ea la _ =>
    obtain ⟨ca, g, m, f, h⟩ := judgeRequest_frame (originOf e.request.port) c party count labels ea la
      { s with engine := { s.engine with heldList := s.engine.heldList.eraseIdx i } }
    split
    · next heq =>
      rw [heq] at h
      subst h
      exact left.trans ((engineSend ..).after ⟨id, id⟩)
    · next heq =>
      rw [heq] at h
      subst h
      refine KeepsLimits.trans (t := { s with engine := { s.engine with
        heldList := (s.engine.heldList.eraseIdx i).insertIdx i _ } }) (setHeld fun places => ?_) ⟨id, id⟩
      have shorter := List.length_eraseIdx_of_lt inside
      exact List.length_insertIdx_le_succ.trans (by omega)
  · exact (left.trans (serveCancel ..)).trans (engineSend ..)
  · exact left.trans (engineSend ..)

theorem expireHeld (s : State) : KeepsLimits s (expireHeld s) := by
  unfold Machine.expireHeld
  split
  · exact refl s
  · next e rest found =>
    obtain ⟨before, after, list, -, -, rfl⟩ := takeFirst_eq_some.1 found
    refine (setHeld fun places => ?_).trans (engineSend ..)
    rw [list, List.length_append, List.length_cons] at places
    rw [List.length_append]
    omega

theorem expireAllHeld (n : Nat) (s : State) : KeepsLimits s (expireAllHeld n s) := by
  induction n generalizing s with
  | zero => exact refl s
  | succ n ih =>
    unfold Machine.expireAllHeld
    split
    · exact refl s
    · exact (expireHeld s).trans (ih _)

theorem changeHeld (f : HeldEntry → HeldEntry) (s : State) : KeepsLimits s (changeHeld f s) :=
  setHeld fun places => by rwa [List.length_map]

theorem closeEngine (s : State) : KeepsLimits s (closeEngine s) := by
  unfold Machine.closeEngine
  refine KeepsLimits.trans ?_ (engineSend ..)
  exact ⟨fun ⟨a, b, c, d, _⟩ => ⟨a, b, c, d, by simp⟩, fun ⟨rides, _, standbys⟩ => ⟨rides, by simp, standbys⟩⟩

/-! ## Rides and tallies -/

theorem rides {s : State} {xs : Table 48 RideRun} (credit : ∀ r, (look s.rides r).credit ≤ 1000 → (look xs r).credit ≤ 1000) :
    KeepsLimits s { s with rides := xs } :=
  ⟨id, fun ⟨rides, rest⟩ => ⟨fun r => ⟨credit r (rides r).1, (rides r).2⟩, rest⟩⟩

/-- A change of one ride that leaves its credit. -/
theorem ride {s : State} (r : Ride) {f : RideRun → RideRun} (credit : ∀ x, (f x).credit = x.credit) :
    KeepsLimits s { s with rides := upd s.rides r f } := by
  refine rides fun q within => ?_
  rw [look_upd]
  split
  · next same => rw [credit, same]; exact within
  · exact within

theorem setTallies {s : State} {ys : Table 48 Tally}
    (marks : ∀ r, marksWf (look s.tallies r).marks → marksWf (look ys r).marks) : KeepsLimits s (setTallies ys s) :=
  ⟨id, fun ⟨rides, rest⟩ => ⟨fun r => ⟨(rides r).1, marks r (rides r).2⟩, rest⟩⟩

theorem raise (f : Flag) (s : State) : KeepsLimits s (raise f s) := ⟨id, id⟩

theorem restartTimer (s : State) (r : Ride) : KeepsLimits s (restartTimer s r) := ride r fun _ => rfl

theorem stopTimer (s : State) (r : Ride) : KeepsLimits s (stopTimer s r) := ride r fun _ => rfl

theorem enterState (r : Ride) (st : RideState) (s : State) : KeepsLimits s (enterState r st s) := by
  have entered : KeepsLimits s { s with rides := upd s.rides r fun x => { x with state := st } } := ride r fun _ => rfl
  unfold Machine.enterState
  simp only []
  split
  · exact (entered.trans (restartTimer ..)).trans ⟨id, id⟩
  · exact (entered.trans (stopTimer ..)).trans ⟨id, id⟩
  · exact (entered.trans (stopTimer ..)).trans ⟨id, id⟩
  · exact (entered.trans (stopTimer ..)).trans ⟨id, id⟩
  · exact entered

theorem reportState (r : Ride) (st : RideState) (s : State) : KeepsLimits s (reportState r st s) := by
  unfold Machine.reportState
  split
  · exact refl s
  · exact enterState ..

theorem restRides (s : State) : KeepsLimits s (restRides s) :=
  rides fun r _ => by rw [look_tabulate]; exact Nat.zero_le _

theorem emptyTallies (m : Nat) (s : State) : KeepsLimits s (emptyTallies m s) :=
  setTallies fun r _ => by rw [look_tabulate]; exact ⟨List.Pairwise.nil, by simp, by simp⟩

theorem gapExpiry (r : Ride) (s : State) : KeepsLimits s (gapExpiry r s) := by
  unfold Machine.gapExpiry
  split
  · exact enterState ..
  · exact refl s

/-- R31: the pass part leaves the credit. -/
theorem accountDispatch (r : Ride) (n time : Nat) (s : State) : KeepsLimits s (accountDispatch r n time s) := by
  refine KeepsLimits.trans (t := { s with rides := upd s.rides r fun x =>
    { x with credit := (look s.rides r).credit - min n (look s.rides r).credit } }) (rides fun q within => ?_) ⟨id, id⟩
  rw [look_upd]
  split
  · next same =>
    subst same
    exact (Nat.sub_le ..).trans within
  · exact within

theorem takeDispatchMessage (e : FieldEntry) (n : Nat) (s : State) : KeepsLimits s (takeDispatchMessage e n s) := by
  unfold Machine.takeDispatchMessage
  split
  · exact refl s
  · split
    · exact refl s
    · split
      · exact refl s
      · next r _ _ =>
        refine (accountDispatch r n (entryTime e s) s).trans ?_
        unfold dispatchState
        split
        · exact restartTimer ..
        · exact enterState ..
        · exact refl _
        · exact refl _
        · exact refl _

theorem takeRideStatus (e : FieldEntry) (code : Nat) (s : State) : KeepsLimits s (takeRideStatus e code s) := by
  unfold Machine.takeRideStatus
  split
  · exact raise ..
  · split
    · exact refl s
    · split
      · exact refl s
      · exact reportState ..

theorem takeCredit (r : Ride) (n : Nat) (s : State) : KeepsLimits s (takeCredit r n s) := by
  unfold Machine.takeCredit
  split
  · refine rides fun q within => ?_
    rw [look_upd]
    split
    · exact Nat.min_le_left ..
    · exact within
  · exact refl s

end KeepsLimits

/-! ## Mark lists (R134 to R137) -/

/-- R135, R136: the marks that `h` guests join. -/
theorem marksWf_joinMarks {h : Nat} (t : Nat) {marks : List Mark} (some : 1 ≤ h) (few : h ≤ 8) (wf : marksWf marks) :
    marksWf (joinMarks h t marks).1 := by
  obtain ⟨order, counts, length⟩ := wf
  unfold joinMarks
  split
  · exact ⟨List.pairwise_singleton .., by simp; omega, by simp⟩
  · next m last =>
    obtain ⟨front, rfl⟩ : ∃ front, marks = front ++ [m] := List.getLast?_eq_some_iff.1 last
    rw [List.pairwise_append] at order
    obtain ⟨frontOrder, -, before⟩ := order
    have mCount := counts m (by simp)
    have replaced (n : Nat) (low : 1 ≤ n) (high : n ≤ 255) : marksWf ((front ++ [m]).dropLast ++ [⟨m.entry, n⟩]) := by
      rw [List.dropLast_concat]
      refine ⟨List.pairwise_append.2 ⟨frontOrder, List.pairwise_singleton .., ?_⟩, ?_, by simpa using length⟩
      · intro x hx y hy
        rw [List.mem_singleton.1 hy]
        exact before x hx m List.mem_cons_self
      · intro x hx
        rcases List.mem_append.1 hx with old | new
        · exact counts x (List.mem_append_left _ old)
        · rw [List.mem_singleton.1 new]
          exact ⟨low, high⟩
    simp only []
    split
    · next young =>
      have := young.2
      rw [Config.markMax] at this
      exact replaced _ (by omega) this
    · split
      · next room =>
        refine ⟨List.pairwise_append.2 ⟨List.pairwise_append.2 ⟨frontOrder, List.pairwise_singleton .., before⟩,
          List.pairwise_singleton .., ?_⟩, ?_, ?_⟩
        · intro x hx y hy
          rw [List.mem_singleton.1 hy]
          have upTo : x.entry ≤ m.entry := by
            rcases List.mem_append.1 hx with old | this
            · exact before x old m List.mem_cons_self
            · rw [List.mem_singleton.1 this]
          exact upTo.trans (Nat.le_max_right ..)
        · intro x hx
          rcases List.mem_append.1 hx with old | new
          · exact counts x old
          · rw [List.mem_singleton.1 new]
            show 1 ≤ h ∧ h ≤ 255
            omega
        · rw [Config.markPlaces] at room
          simp only [List.length_append, List.length_singleton] at room ⊢
          omega
      · rw [Config.markMax]
        exact replaced _ (by omega) (by omega)

/-- R137: the marks that are left by boarders. -/
theorem marksWf_boardMarks (t n : Nat) {marks : List Mark} (obs : Option ObservedWait) (wf : marksWf marks) :
    marksWf (boardMarks t n marks obs).1 := by
  induction marks generalizing n obs with
  | nil => exact wf
  | cons m ms ih =>
    obtain ⟨order, counts, length⟩ := wf
    unfold boardMarks
    split
    · exact ⟨order, counts, length⟩
    · split
      · refine ih _ _ ⟨(List.pairwise_cons.1 order).2, fun x hx => counts x (List.mem_cons_of_mem _ hx), ?_⟩
        rw [List.length_cons] at length
        omega
      · next here =>
        have mCount := counts m List.mem_cons_self
        refine ⟨List.pairwise_cons.2 (List.pairwise_cons.1 order), fun x hx => ?_, length⟩
        rcases List.mem_cons.1 hx with rfl | later
        · show 1 ≤ m.count - n ∧ m.count - n ≤ 255
          omega
        · exact counts x (List.mem_cons_of_mem _ later)

namespace KeepsLimits

theorem takeDispatch (h : DispatchHandoff) (s : State) : KeepsLimits s (takeDispatch h s) := by
  unfold Machine.takeDispatch
  split
  · refine ⟨id, fun ⟨rides, rest⟩ => ⟨fun r => ⟨(rides r).1, ?_⟩, rest⟩⟩
    show marksWf (look (put s.tallies h.ride _) r).marks
    rw [look_put]
    split
    · exact marksWf_boardMarks _ _ _ (rides h.ride).2
    · exact (rides r).2
  · exact refl s

theorem takeTallyState (r : Ride) (st : RideState) (s : State) : KeepsLimits s (takeTallyState r st s) := by
  unfold Machine.takeTallyState
  split
  · refine setTallies fun q wf => ?_
    rw [look_put]
    split
    · next same => exact same ▸ wf
    · exact wf
  · exact refl s

theorem postingTick (s : State) : KeepsLimits s (postingTick s) := by
  refine setTallies fun r wf => ?_
  rw [look_tabulate]
  have rotated : ((if clockNow s % 60 = 0 then rotateRate (minuteNow s) (look s.tallies r) else look s.tallies r).marks) =
      (look s.tallies r).marks := by
    split
    · unfold rotateRate
      split <;> rfl
    · rfl
  unfold tickTally
  simp only []
  split
  · simpa only [rotated] using wf
  · simpa only [rotated] using wf

/-- R98, R135: a standby hand-off is taken with the head count that was checked when it was made. -/
theorem standbyTaken {s : State} {position : Nat} {h : StandbyHandoff} (taken : s.out.standbys[position]? = some h) :
    KeepsLimits s (takeStandby h { s with out := { s.out with standbys := s.out.standbys.eraseIdx position } }) := by
  have rest : KeepsLimits s { s with out := { s.out with standbys := s.out.standbys.eraseIdx position } } :=
    ⟨id, fun ⟨rides, run, standbys⟩ => ⟨rides, run, fun x hx => standbys x (List.mem_of_mem_eraseIdx hx)⟩⟩
  unfold takeStandby
  split
  · refine KeepsLimits.trans (t := { s with
      tallies := put s.tallies h.ride { look s.tallies h.ride with
        marks := (joinMarks h.headCount h.time (look s.tallies h.ride).marks).1
        saturated := (look s.tallies h.ride).saturated ||
          decide (0 < (joinMarks h.headCount h.time (look s.tallies h.ride).marks).2) }
      out := { s.out with standbys := s.out.standbys.eraseIdx position } }) ⟨id, fun wf => ?_⟩ ?_
    · obtain ⟨rides, run, standbys⟩ := rest.counters wf
      refine ⟨fun r => ⟨(rides r).1, ?_⟩, run, standbys⟩
      rw [look_put]
      split
      · obtain ⟨some, few⟩ := wf.2.2 h (List.mem_of_getElem? taken)
        exact marksWf_joinMarks _ some few (rides h.ride).2
      · exact (rides r).2
    · simp only []
      split
      · exact raise ..
      · exact refl _
  · exact rest

/-! ## The Admission Unit -/

theorem handStandby {h : Nat} (r : Ride) (time : Nat) (s : State) (some : 1 ≤ h) (few : h ≤ 8) :
    KeepsLimits s (handStandby r h time s) := by
  refine ⟨id, fun ⟨rides, run, standbys⟩ => ⟨rides, run, fun x hx => ?_⟩⟩
  rcases List.mem_append.1 hx with old | new
  · exact standbys x old
  · rw [List.mem_singleton.1 new]
    exact ⟨some, few⟩

theorem judgeStandby {h : Nat} (r : Ride) (time : Nat) (s : State) (some : 1 ≤ h) (few : h ≤ 8) :
    KeepsLimits s (judgeStandby r h time s).2 := by
  unfold Machine.judgeStandby
  split
  · exact (handStandby r time _ some few).after ⟨id, id⟩
  · exact (handStandby r time _ some few).after ⟨id, id⟩
  · exact ⟨id, id⟩
  · exact ⟨id, id⟩
  · exact ⟨id, id⟩

theorem judgeTap {h : Nat} (rd : Reader) (c : Credential) (time : Nat) (s : State) (some : 1 ≤ h) (few : h ≤ 8) :
    KeepsLimits s (judgeTap rd c h time s).2 := by
  unfold Machine.judgeTap
  split
  · exact refl s
  · split
    · exact ⟨id, id⟩
    · split
      · exact ⟨id, id⟩
      · split
        · exact judgeStandby _ _ s some few
        · obtain ⟨ca, g, m, o, eq⟩ := judgeMerge_frame c rd.ride s
          rw [eq]
          exact ⟨id, id⟩

theorem observeTap {h : Nat} (rd : Reader) (time : Nat) (s : State) (some : 1 ≤ h) (few : h ≤ 8) :
    KeepsLimits s (observeTap rd h time s) := by
  unfold Machine.observeTap
  split
  · exact refl s
  · split
    · exact handStandby _ _ s some few
    · exact ⟨id, id⟩

theorem sendVerdict (mode : ActedMode) (f : PartFrame) (s : State) : KeepsLimits s (sendVerdict mode f s) :=
  (send .admission s.admission.outbox _ s).trans ⟨id, id⟩

theorem takeTap (e : FieldEntry) (i : ReaderIx) (mode : ActedMode) (c : Credential) (h : Nat) (tag : Tag) (s : State) :
    KeepsLimits s (takeTap e i mode c h tag s) := by
  unfold Machine.takeTap
  simp only []
  split
  · exact raise ..
  · next range =>
    have some : 1 ≤ h := by omega
    have few : h ≤ 8 := by omega
    split
    · exact observeTap _ _ s some few
    · exact (judgeTap _ c _ s some few).trans (sendVerdict ..)
    · exact (judgeTap _ c _ s some few).trans (sendVerdict ..)

/-! ## The Walker -/

theorem sendChange (f : Option PartFrame) (s : State) : KeepsLimits s (sendChange f s) := by
  unfold Machine.sendChange
  split
  · exact refl s
  · split
    · next room => exact writeFrame (p := .trunk) _ (room_of_hasRoom room)
    · exact (beginWait ..).trans ⟨id, id⟩

theorem completeItem (i : WorkItem) (s : State) : KeepsLimits s (completeItem i s) := by
  obtain ⟨w, e, h⟩ := completeItem_frame i s
  rw [h]
  exact ⟨id, id⟩

theorem nextItem (s : State) : KeepsLimits s (nextItem s) := by
  obtain ⟨w, f, h⟩ := nextItem_frame s
  rw [h]
  exact ⟨id, id⟩

theorem finishStep (i : WorkItem) (f : Option PartFrame) (left : Nat) (s : State) :
    KeepsLimits s (finishStep i f left s) := by
  unfold Machine.finishStep
  split
  · simp only []
    split
    · exact (completeItem ..).trans (sendChange ..)
    · exact ((completeItem ..).trans (sendChange ..)).trans (nextItem ..)
  · exact sendChange ..

theorem displaceStep (i : WorkItem) (s : State) : KeepsLimits s (displaceStep i s) := by
  unfold Machine.displaceStep
  split
  · exact finishStep ..
  · next d t claimed =>
    obtain ⟨c, g, rfl⟩ := displaceClaim_frame claimed
    simp only []
    split
    · exact (finishStep ..).after ⟨id, id⟩
    · exact (finishStep ..).after ⟨id, id⟩

theorem expireStep (i : WorkItem) (s : State) : KeepsLimits s (expireStep i s) := by
  unfold Machine.expireStep
  split
  · exact finishStep ..
  · next e t claimed =>
    obtain ⟨c, g, rfl⟩ := expireClaim_frame claimed
    exact (finishStep ..).after ⟨id, id⟩

theorem writeChange {s : State} (f : PartFrame) (turn : hasTurn s.trunkPort .walker = true) :
    KeepsLimits s (writeChange f s) := by
  have written : KeepsLimits s (Machine.writeFrame .trunk f (Machine.endWait .trunk .walker s)) :=
    writeAfterWait (p := .trunk) f turn
  unfold Machine.writeChange
  simp only []
  split
  · exact written.trans ⟨id, id⟩
  · split
    · exact written.trans ⟨id, id⟩
    · exact (nextItem ..).after (written.trans ⟨id, id⟩)

/-! ## The boards -/

theorem of_boardsOnly {s t : State} (only : BoardsOnly s t) : KeepsLimits s t := by
  obtain ⟨⟨q, x, rfl⟩, long⟩ := only
  refine ⟨fun ⟨field, rest⟩ => ⟨⟨field.1, field.2.1, ?_⟩, rest⟩, id⟩
  exact long.trans (Nat.max_le.2 ⟨field.2.2, by simp⟩)

/-! ## The ports, from the line -/

theorem receiveFrame (p : Port) (f : RxFrame) (s : State) : KeepsLimits s (receiveFrame p f s) := by
  unfold Machine.receiveFrame
  split
  · simp only []
    split
    · next room =>
      refine setPort fun ⟨_, rest⟩ => ⟨?_, rest⟩
      rw [List.length_append, List.length_singleton]
      exact room
    · exact raise ..
  · exact refl s

theorem relayTo (p : Port) (f : Frame) (s : State) : KeepsLimits s (relayTo p f s) := by
  unfold Machine.relayTo
  simp only []
  split
  · next room =>
    refine setPort fun ⟨received, _, part⟩ => ⟨received, ?_, part⟩
    rw [List.length_append, List.length_singleton]
    exact room
  · exact raise ..

theorem joinFieldIntake (src : Addr) (body : FieldBody) (s : State) : KeepsLimits s (joinFieldIntake src body s) := by
  unfold Machine.joinFieldIntake
  split
  · next room =>
    refine ⟨fun ⟨a, b, _, rest⟩ => ⟨a, b, ?_, rest⟩, id⟩
    rw [List.length_append, List.length_singleton]
    exact room
  · exact raise ..

theorem joinMgmtIntake (e : MgmtEntry) (s : State) : KeepsLimits s (joinMgmtIntake e s) := by
  unfold Machine.joinMgmtIntake
  split
  · next room =>
    refine ⟨fun ⟨a, b, c, _, rest⟩ => ⟨a, b, c, ?_, rest⟩, id⟩
    rw [List.length_append, List.length_singleton]
    exact room
  · exact raise ..

theorem sortTap (f : Frame) (src : Addr) (i : ReaderIx) (body : List Byte) (s : State) :
    KeepsLimits s (sortTap f src i body s) := by
  unfold Machine.sortTap
  simp only []
  split
  · exact relayTo ..
  · exact (joinFieldIntake ..).trans (relayTo ..)
  · exact joinFieldIntake ..
  · exact (joinFieldIntake ..).trans (relayTo ..)

theorem sortController (f : Frame) (src : Addr) (body : FieldBody) (s : State) :
    KeepsLimits s (sortController f src body s) := by
  unfold Machine.sortController
  split
  · exact relayTo ..
  · simp only []
    split
    · exact (joinFieldIntake ..).trans (relayTo ..)
    · exact joinFieldIntake ..

theorem sortField (f : Frame) (dst src : Addr) (k : Kind) (body : List Byte) (s : State) :
    KeepsLimits s (sortField f dst src k body s) := by
  unfold Machine.sortField
  split
  · exact raise ..
  · split
    · split
      · exact sortRequest ..
      · exact raise ..
    · split
      · split
        · exact sortTap ..
        · exact relayTo ..
      · exact sortController ..
      · exact sortController ..
      · exact relayTo ..

theorem sortTrunk (f : Frame) (dst src : Addr) (k : Kind) (body : List Byte) (s : State) :
    KeepsLimits s (sortTrunk f dst src k body s) := by
  unfold Machine.sortTrunk
  split
  · split
    · split
      · exact joinMgmtIntake ..
      · exact raise ..
    · split
      · exact sortRequest ..
      · exact raise ..
  · exact relayTo ..

theorem classify (p : Port) (s : State) : KeepsLimits s (classify p s) := by
  unfold Machine.classify
  simp only []
  split
  · exact refl s
  · split
    · exact refl s
    · next f rest buffer =>
      have taken : KeepsLimits s (Machine.setPort s p { portOf s p with receiveBuffer := rest }) := by
        refine setPort fun ⟨received, others⟩ => ⟨?_, others⟩
        rw [buffer, List.length_cons] at received
        show rest.length ≤ 16
        omega
      refine taken.trans ?_
      unfold sortFrame
      split
      · exact relayTo ..
      · exact raise ..
      · split
        · exact relayTo ..
        · split
          · exact sortField ..
          · exact sortTrunk ..

theorem startTransmission (p : Port) (s : State) : KeepsLimits s (startTransmission p s) := by
  unfold Machine.startTransmission
  simp only []
  split
  · split
    · exact refl s
    · split
      · exact refl s
      · next f rest queue =>
        refine setPort fun ⟨received, relayed, part⟩ => ⟨received, ?_, part⟩
        rw [queue, List.length_cons] at relayed
        show rest.length ≤ 128
        omega
    · split
      · exact refl s
      · next f rest queue =>
        have sent : KeepsLimits s (Machine.setPort s p { portOf s p with
            partQueue := rest, transmitting := some (wireBytes s.nodeAddress f), nextPreference := .relay }) := by
          refine setPort fun ⟨received, relayed, part⟩ => ⟨received, relayed, ?_⟩
          rw [queue, List.length_cons] at part
          show rest.length ≤ 128
          omega
        unfold noteReplySending
        split
        · exact sent.trans ⟨id, id⟩
        · exact sent
  · exact refl s

theorem endTransmission (p : Port) (s : State) : KeepsLimits s (endTransmission p s) := by
  unfold Machine.endTransmission
  simp only []
  split
  · exact (setPort (p := p) (ps := { portOf s p with transmitting := none }) id).trans ⟨id, id⟩
  · exact setPort id

end KeepsLimits

end Sys2Proof.Machine
end

section
/-! PROOFS. Every command keeps the limits: of the queues (O55) and of the counters (O57). -/

namespace Sys2Proof.Machine

namespace KeepsLimits

/-! ## The day and the clock -/

theorem setPhase (p : Phase) (s : State) : KeepsLimits s (setPhase p s) := by
  obtain ⟨fs, n, h'⟩ := setPhase_out p s
  obtain ⟨o, h⟩ := setPhase_frame p s
  have standbys := congrArg Handoffs.standbys h'
  rw [h] at standbys ⊢
  refine ⟨id, fun ⟨rides, run, heads⟩ => ⟨rides, run, fun x hx => heads x ?_⟩⟩
  exact standbys ▸ hx

theorem closeDay (s : State) : KeepsLimits s (closeDay s) := by
  have emptied : KeepsLimits (Machine.setPhase .night s) { emptyCalendar (Machine.setPhase .night s) with
      guests := [], walker := abandonWalk (emptyCalendar (Machine.setPhase .night s)).walker } := ⟨id, id⟩
  exact ((((setPhase .night s).trans emptied).trans (emptyTallies 0 _)).trans (restRides _)).trans (closeEngine _)

theorem wrapMidnight (s : State) : KeepsLimits s (wrapMidnight s) := by
  unfold Machine.wrapMidnight
  split
  · exact closeDay s
  · exact refl s

theorem runBoundary (b : Boundary) (s : State) : KeepsLimits s (runBoundary b s) := by
  cases b with
  | openMinute =>
    simp only [Machine.runBoundary, openMinuteReached]
    split
    · exact setPhase ..
    · exact refl s
  | lastCall =>
    simp only [Machine.runBoundary, lastCallReached]
    split
    · exact setPhase ..
    · exact refl s
  | earlyRedemption r k =>
    obtain ⟨c, w, h⟩ := earlyRedemption_frame r k s
    simp only [Machine.runBoundary, h]
    exact ⟨id, id⟩
  | windowEnd r k =>
    obtain ⟨c, w, h⟩ := windowEnd_frame r k s
    simp only [Machine.runBoundary, h]
    exact ⟨id, id⟩
  | closing r k =>
    obtain ⟨c, w, h⟩ := closingTime_frame r k s
    simp only [Machine.runBoundary, h]
    exact ⟨id, id⟩
  | historyRotation => exact ⟨id, id⟩
  | postingTick => exact postingTick s
  | gapExpiry r => exact gapExpiry r s
  | holdExpiry => exact expireAllHeld _ s
  | spacingEnd x => exact of_boardsOnly (spacingEnd_frame x s)
  | refresh x => exact of_boardsOnly (refreshBoard_frame x s)

theorem takeDue (b : Boundary) (s : State) : KeepsLimits s (takeDue b s) := by
  unfold Machine.takeDue
  split
  · exact (runBoundary ..).after ⟨id, id⟩
  · exact refl s

theorem takeDues (bs : List Boundary) (s : State) : KeepsLimits s (takeDues bs s) := by
  induction bs generalizing s with
  | nil => exact refl s
  | cons b bs ih => exact (takeDue b s).trans (ih _)

theorem settle (order : List Boundary) (s : State) : KeepsLimits s (settle order s) :=
  (takeDues order s).trans (takeDues ..)

theorem countTimers (s : State) : KeepsLimits s (countTimers s) := by
  have timers : KeepsLimits s { s with rides := tmap (fun x => { x with timer := timerSecond x.timer }) s.rides } :=
    rides fun r within => by rw [look_tmap]; exact within
  exact (timers.trans (setHeld (es := s.engine.heldList.map (holdSecond s.day.park.holdLimit)) fun places => by
    rwa [List.length_map])).trans ⟨id, id⟩

theorem tick (s : State) : KeepsLimits s (tick s) := by
  unfold Machine.tick
  split
  · exact refl s
  · next t _ =>
    have counted := (countTimers { s with day := { s.day with clock := some (nextSecond t) } }).after
      (s := s) ⟨id, id⟩
    unfold reachSecond
    simp only []
    split
    · exact (counted.trans (wrapMidnight ..)).trans ⟨id, id⟩
    · exact counted.trans ⟨id, id⟩

theorem passSeconds (n : Nat) (orders : List (List Boundary)) (s : State) : KeepsLimits s (passSeconds n orders s) := by
  induction n generalizing orders s with
  | zero => exact refl s
  | succ n ih => exact ((tick s).trans (settle ..)).trans (ih ..)

theorem trimClock (n : Int) (orders : List (List Boundary)) (s : State) : KeepsLimits s (trimClock n orders s) := by
  unfold Machine.trimClock
  split
  · exact (settle ..).trans (passSeconds ..)
  · exact (settle [] s).trans ⟨id, id⟩

/-! ## Resets -/

theorem powerOnState (a : Addr) (s : State) : KeepsLimits s (powerOnState a s) := by
  refine ⟨fun _ => ?_, fun _ => ⟨fun r => ?_, ?_, ?_⟩⟩
  · refine ⟨⟨?_, ?_, ?_⟩, ⟨?_, ?_, ?_⟩, ?_, ?_, ?_, ?_, ?_⟩ <;> exact Nat.zero_le _
  · show (look (filled 48 (_ : RideRun)) r).credit ≤ 1000 ∧ marksWf (look (filled 48 (_ : Tally)) r).marks
    rw [look_filled, look_filled]
    exact ⟨Nat.zero_le _, List.Pairwise.nil, by simp, by simp⟩
  · exact Nat.zero_le _
  · intro h hh
    cases hh

theorem lineResetState (a : Addr) (s : State) : KeepsLimits s (lineResetState a s) := by
  have kept : KeepsLimits s (lineResetKept a s) := by
    refine ⟨fun _ => ?_, fun wf => ⟨fun r => ⟨?_, (wf.1 r).2⟩, Nat.zero_le _, fun h hh => nomatch hh⟩⟩
    · refine ⟨⟨?_, ?_, ?_⟩, ⟨?_, ?_, ?_⟩, ?_, ?_, ?_, ?_, ?_⟩ <;> exact Nat.zero_le _
    · show (look (filled 48 (_ : RideRun)) r).credit ≤ 1000
      rw [look_filled]
      exact Nat.zero_le _
  exact (kept.trans (restRides _)).trans (emptyTallies 0 _)

theorem softResetState (s : State) : KeepsLimits s (softResetState s) := by
  have blocks : KeepsLimits s (softResetBlocks s) := by
    refine ⟨fun _ => ?_, fun wf => ⟨wf.1, Nat.zero_le _, wf.2.2⟩⟩
    refine ⟨⟨?_, ?_, ?_⟩, ⟨?_, ?_, ?_⟩, ?_, ?_, ?_, ?_, ?_⟩ <;> exact Nat.zero_le _
  exact (blocks.trans (restRides _)).trans (emptyTallies 0 _)

/-! ## The Management Unit -/

theorem mgmtWrite (fs : List (Port × PartFrame)) (s : State) : KeepsLimits s (mgmtWrite fs s) :=
  (send .management s.management.outbox fs s).trans ⟨id, id⟩

theorem mgmtFinish (fs : List (Port × PartFrame)) (s : State) : KeepsLimits s (mgmtFinish fs s) := by
  unfold Machine.mgmtFinish
  split
  · exact (mgmtWrite ..).after ⟨id, id⟩
  · exact mgmtWrite ..

theorem mgmtResume (reply : Bool) (s : State) : KeepsLimits s (mgmtResume reply s) := by
  unfold Machine.mgmtResume
  split
  · exact refl s
  · simp only []
    split
    · next turn => exact (mgmtFinish ..).after ((resume turn.2).trans ⟨id, id⟩)
    · exact refl s

theorem takeFlag (f : Flag) (s : State) : KeepsLimits s (takeFlag f s) := by
  unfold Machine.takeFlag
  split
  · exact (mgmtFinish ..).after ⟨id, id⟩
  · exact refl s

/-- A serve takes the head of the intake and keeps the limits if its command does. -/
theorem serve {code : Nat} {f : MgmtCommand → State → Option (Answer × State)} {s : State}
    (acts : ∀ c a t u, f c t = some (a, u) → KeepsLimits t u) : KeepsLimits s (serve code f s) := by
  rcases serve_cases code f s with h | ⟨e, rest, a, u, -, intake, found, h⟩
  · rw [h]
    exact refl s
  · have taken : KeepsLimits s { s with mgmtIntake := rest } := by
      refine ⟨fun ⟨a, b, c, places, others⟩ => ⟨a, b, c, ?_, others⟩, id⟩
      rw [intake, List.length_cons] at places
      show rest.length ≤ 16
      omega
    rw [h]
    exact (taken.trans (acts _ a _ u found)).trans (mgmtFinish ..)

theorem takeParkWrite (items : List (Nat × Nat)) (s : State) : KeepsLimits s (takeParkWrite items s) := by
  have judged (u : State) : KeepsLimits u (judgeLastCallMinute (judgeOpenMinute u)) := by
    refine KeepsLimits.trans (t := judgeOpenMinute u) ?_ ?_
    · unfold judgeOpenMinute
      split
      · exact setPhase ..
      · exact refl u
    · unfold judgeLastCallMinute
      split
      · exact setPhase ..
      · exact refl _
  unfold Machine.takeParkWrite
  simp only []
  split
  · exact (judged _).after ⟨id, id⟩
  · exact ⟨id, id⟩

theorem takeRideWrite (r : Ride) (items : List (Nat × Nat)) (order : List BoardIx) (s : State) :
    KeepsLimits s (takeRideWrite r items order s) := by
  have moved (e : RideEntry) : KeepsLimits s (moveRide r (rideEntry s r) e { s with rideTable := put s.rideTable r e }) := by
    unfold moveRide
    split
    · exact ⟨id, id⟩
    · exact (ride (f := fun x => { x with state := restingState e }) r fun _ => rfl).after ⟨id, id⟩
  unfold Machine.takeRideWrite
  simp only []
  split
  · exact (moved _).trans (of_boardsOnly (boardsChanged_frame ..))
  · exact moved _

theorem tableWrite (table index : Nat) (items : List (Nat × Nat)) (order : List BoardIx) (s : State) :
    KeepsLimits s (tableWrite table index items order s).2 := by
  unfold Machine.tableWrite
  split
  · exact refl s
  · next x _ =>
    cases x with
    | park => exact takeParkWrite ..
    | profile i => exact ⟨id, id⟩
    | ride r => exact takeRideWrite ..
    | reader i => exact ⟨id, id⟩
    | board b => exact (of_boardsOnly (boardWritten_frame ..)).after ⟨id, id⟩

theorem dayOpen (s : State) : KeepsLimits s (dayOpen s).2 := by
  unfold Machine.dayOpen
  split
  · exact refl s
  · split
    · exact refl s
    · exact (setPhase .checking s).trans ⟨id, id⟩

theorem phaseSet (code : Nat) (s : State) : KeepsLimits s (phaseSet code s).2 := by
  unfold Machine.phaseSet
  split
  · exact refl s
  · split
    · exact refl s
    · split
      · exact refl s
      · exact setPhase ..

theorem dayClose (s : State) : KeepsLimits s (dayClose s).2 := by
  unfold Machine.dayClose
  split
  · exact refl s
  · exact (setPhase ..).after ⟨id, id⟩
  all_goals exact closeDay s

theorem clockSet (h m sec : Nat) (s : State) : KeepsLimits s (clockSet h m sec s).2 := by
  unfold Machine.clockSet
  split
  · exact refl s
  · split
    · exact refl s
    · split
      · exact refl s
      · exact (settle [] s).trans ⟨id, id⟩

theorem clockTrim (n : Int) (orders : List (List Boundary)) (s : State) : KeepsLimits s (clockTrim n orders s).2 := by
  unfold Machine.clockTrim
  split
  · exact refl s
  · split
    · exact refl s
    · split
      · exact refl s
      · exact trimClock ..

theorem rideOverride (index code : Nat) (s : State) : KeepsLimits s (rideOverride index code s).2 := by
  unfold Machine.rideOverride
  split
  · exact refl s
  · split
    · exact refl s
    · split
      · exact refl s
      · split
        · exact refl s
        · split
          · exact refl s
          · exact reportState ..

theorem boardMode (board mode : Nat) (s : State) : KeepsLimits s (boardMode board mode s).2 := by
  unfold Machine.boardMode
  split
  · exact refl s
  · split
    · exact refl s
    · split
      · exact refl s
      · split
        · exact refl s
        · exact of_boardsOnly (changeMode_frame ..)

theorem passRevoke (index : Nat) (c : Credential) (s : State) : KeepsLimits s (passRevoke index c s).2 := by
  unfold Machine.passRevoke
  split
  · exact refl s
  · split
    · exact refl s
    · split
      · exact refl s
      · split
        · exact refl s
        · split
          · exact refl s
          · next removed =>
            obtain ⟨ca, g, rfl⟩ := removalClaim_frame removed
            exact ⟨id, id⟩

/-! ## The opening check -/

theorem completeCheck (s : State) : KeepsLimits s (completeCheck s) := by
  unfold Machine.completeCheck
  simp only []
  split
  · refine (setPhase ..).after ?_
    unfold setUpDay
    simp only []
    refine (emptyTallies ..).after ((restRides _).after ?_)
    exact ⟨id, fun ⟨rides, run, _⟩ => ⟨rides, run, fun h hh => nomatch hh⟩⟩
  · exact (setPhase ..).after ⟨id, id⟩

end KeepsLimits

/-! ## Every command -/

theorem event_limits {f : State → State} {s t : State} (h : event f s = .next t) (keeps : KeepsLimits s (f s)) :
    KeepsLimits s t := by
  rcases event_cases h with rfl | ⟨-, rfl⟩
  · exact .refl _
  · exact keeps

/-- A delivered message has left the field intake. -/
theorem KeepsLimits.delivered {s t : State} {e : FieldEntry} (delivered : deliver s = some (e, t)) : KeepsLimits s t := by
  obtain ⟨rest, intake, rfl⟩ := deliver_eq_some delivered
  refine ⟨fun ⟨a, b, places, others⟩ => ⟨a, b, ?_, others⟩, id⟩
  rw [intake, List.length_cons] at places
  show rest.length ≤ 256
  omega

/-- A picked request has left its queue. -/
theorem KeepsLimits.picked {s : State} {o : Origin} {q : Request} {rest : List Request}
    (picked : pickedRequest s = some (o, q, rest)) : KeepsLimits s (Machine.setQueue (portOfOrigin o) rest s) := by
  refine .setQueue fun places => ?_
  rw [pickedRequest_eq_some picked, List.length_cons] at places
  omega

theorem firstServable_eq_some {es : List HeldEntry} {i : Nat} {e : HeldEntry} (h : firstServable es = some (i, e)) :
    i < es.length ∧ es[i]? = some e ∧ e.servable = true := by
  unfold firstServable at h
  split at h
  · cases h
  · next j found =>
    obtain ⟨x, here, eq⟩ := Option.map_eq_some_iff.1 h
    obtain ⟨rfl, rfl⟩ := Prod.mk.injEq .. ▸ eq
    obtain ⟨inside, servable, -⟩ := List.findIdx?_eq_some_iff_getElem.1 found
    refine ⟨inside, here, ?_⟩
    rw [List.getElem?_eq_getElem inside] at here
    exact Option.some.inj here ▸ servable

/-- Every command keeps the limits. -/
theorem exec_limits {c : Instr} {s t : State} (h : exec c s = .next t) : KeepsLimits s t := by
  cases c
  case powerOn a =>
    cases h
    exact .powerOnState ..
  case lineReset a =>
    cases h
    exact .lineResetState ..
  case resetNAsserted =>
    cases h
    exact (KeepsLimits.lineResetState s.nodeAddress s).trans ⟨id, id⟩
  case linkStateChange p up =>
    cases h
    exact .setPort id
  case frameReceived p f =>
    exact event_limits h (.receiveFrame ..)
  case classifyFrame p =>
    exact event_limits h (.classify ..)
  case queueFullWrite p =>
    change execQueueFullWrite p s = _ at h
    refine event_limits h ?_
    split
    · exact .refl s
    · split
      · next turn => exact .writeFull _ turn
      · exact .refl s
  case transmissionStart p =>
    exact event_limits h (.startTransmission ..)
  case transmissionEnd p =>
    change execTransmissionEnd p s = _ at h
    refine event_limits h ?_
    split
    · exact .endTransmission ..
    · exact .refl s
  case clockAdvance | midnightWrap =>
    rcases event_cases h with rfl | ⟨-, rfl⟩
    · exact .refl _
    · split
      · exact (KeepsLimits.settle [] s).trans (.tick _)
      · exact .refl s
  case openMinuteBoundary | lastCallBoundary | earlyRedemptionTime | windowEnd | closingTime | postingTick
      | dispatchHistoryRotation | gapTimerExpiry | boardSpacingEnd | boardRefresh =>
    exact event_limits h (.takeDue ..)
  case holdExpiry =>
    change execHoldExpiry s = _ at h
    refine event_limits h ?_
    split
    · exact .refl s
    · exact .expireHeld s
  case statusReadPart | statusReadRide | statusReadBoard =>
    refine event_limits h (.serve fun c a t u found => ?_)
    split at found
    · rw [statusOf_snd found]
      exact .refl t
    · cases found
  case tableRead =>
    refine event_limits h (.serve fun c a t u found => ?_)
    split at found
    · obtain rfl := (congrArg Prod.snd (Option.some.inj found)).symm
      rw [tableRead_snd]
      exact .refl t
    · cases found
  case countsRead =>
    refine event_limits h (.serve fun c a t u found => ?_)
    split at found
    · obtain rfl := (congrArg Prod.snd (Option.some.inj found)).symm
      rw [countsRead_snd]
      exact .refl t
    · cases found
  case calendarRead =>
    refine event_limits h (.serve fun c a t u found => ?_)
    split at found
    · obtain rfl := (congrArg Prod.snd (Option.some.inj found)).symm
      rw [calendarRead_snd]
      exact .refl t
    · cases found
  case guestReadExact =>
    refine event_limits h (.serve fun c a t u found => ?_)
    split at found
    · split at found
      · obtain rfl := (congrArg Prod.snd (Option.some.inj found)).symm
        rw [guestReadExact_snd]
        exact .refl t
      · split at found
        · cases found
        · obtain rfl := (congrArg Prod.snd (Option.some.inj found)).symm
          exact .refl _
    · cases found
  case guestReadNext =>
    refine event_limits h (.serve fun c a t u found => ?_)
    split at found
    · split at found
      · obtain rfl := (congrArg Prod.snd (Option.some.inj found)).symm
        rw [guestReadNext_snd]
        exact .refl t
      · split at found
        · cases found
        · obtain rfl := (congrArg Prod.snd (Option.some.inj found)).symm
          exact .refl _
    · cases found
  case tableWrite order =>
    refine event_limits h (.serve fun c a t u found => ?_)
    split at found
    · obtain rfl := (congrArg Prod.snd (Option.some.inj found)).symm
      exact .tableWrite ..
    · cases found
  case dayOpen =>
    refine event_limits h (.serve fun c a t u found => ?_)
    split at found
    · obtain rfl := (congrArg Prod.snd (Option.some.inj found)).symm
      exact .dayOpen ..
    · cases found
  case phaseSet =>
    refine event_limits h (.serve fun c a t u found => ?_)
    split at found
    · obtain rfl := (congrArg Prod.snd (Option.some.inj found)).symm
      exact .phaseSet ..
    · cases found
  case dayClose =>
    refine event_limits h (.serve fun c a t u found => ?_)
    split at found
    · obtain rfl := (congrArg Prod.snd (Option.some.inj found)).symm
      exact .dayClose ..
    · cases found
  case clockSet =>
    refine event_limits h (.serve fun c a t u found => ?_)
    split at found
    · obtain rfl := (congrArg Prod.snd (Option.some.inj found)).symm
      exact .clockSet ..
    · cases found
  case clockTrim orders =>
    refine event_limits h (.serve fun c a t u found => ?_)
    split at found
    · obtain rfl := (congrArg Prod.snd (Option.some.inj found)).symm
      exact .clockTrim ..
    · cases found
  case rideOverride =>
    refine event_limits h (.serve fun c a t u found => ?_)
    split at found
    · obtain rfl := (congrArg Prod.snd (Option.some.inj found)).symm
      exact .rideOverride ..
    · cases found
  case boardMode =>
    refine event_limits h (.serve fun c a t u found => ?_)
    split at found
    · obtain rfl := (congrArg Prod.snd (Option.some.inj found)).symm
      exact .boardMode ..
    · cases found
  case passRevoke =>
    refine event_limits h (.serve fun c a t u found => ?_)
    split at found
    · obtain rfl := (congrArg Prod.snd (Option.some.inj found)).symm
      exact .passRevoke ..
    · cases found
  case noticeSet =>
    refine event_limits h (.serve fun c a t u found => ?_)
    split at found
    · obtain rfl := (congrArg Prod.snd (Option.some.inj found)).symm
      unfold noticeSet
      split <;> exact ⟨id, id⟩
    · cases found
  case noticeClear =>
    refine event_limits h (.serve fun c a t u found => ?_)
    split at found
    · obtain rfl := (congrArg Prod.snd (Option.some.inj found)).symm
      unfold noticeClear
      split <;> exact ⟨id, id⟩
    · cases found
  case softReset =>
    refine event_limits h (.serve fun c a t u found => ?_)
    split at found
    · obtain rfl := (congrArg Prod.snd (Option.some.inj found)).symm
      exact ⟨id, id⟩
    · cases found
  case softResetAction =>
    change execSoftResetAction s = _ at h
    refine event_limits h ?_
    split
    · exact .softResetState s
    · exact .refl s
  case mgmtReplyWrite | noticeWrite =>
    exact event_limits h (.mgmtResume ..)
  case noticeFlagSet f =>
    exact event_limits h (.takeFlag ..)
  case tap =>
    change execTap s = _ at h
    refine event_limits h ?_
    split
    · next delivered =>
      split
      · exact (KeepsLimits.takeTap ..).after (.delivered delivered)
      · exact .refl s
    · exact .refl s
  case dispatch =>
    change execDispatch s = _ at h
    refine event_limits h ?_
    split
    · next delivered =>
      split
      · exact (KeepsLimits.takeDispatchMessage ..).after (.delivered delivered)
      · exact .refl s
    · exact .refl s
  case rideStatus =>
    change execRideStatus s = _ at h
    refine event_limits h ?_
    split
    · next delivered =>
      split
      · exact (KeepsLimits.takeRideStatus ..).after (.delivered delivered)
      · exact .refl s
    · exact .refl s
  case verdictWrite =>
    change execVerdictWrite s = _ at h
    refine event_limits h ?_
    split
    · next can => exact (KeepsLimits.resume can).trans ⟨id, id⟩
    · exact .refl s
  case standbyHandoff position =>
    change execStandbyHandoff position s = _ at h
    refine event_limits h ?_
    split
    · exact .refl s
    · next taken => exact .standbyTaken taken
  case creditAddition r =>
    change execCreditAddition r s = _ at h
    refine event_limits h ?_
    split
    · exact .refl s
    · exact (KeepsLimits.takeCredit ..).after ⟨id, id⟩
  case dispatchHandoff r =>
    change execDispatchHandoff r s = _ at h
    refine event_limits h ?_
    split
    · exact .refl s
    · exact (KeepsLimits.takeDispatch ..).after ⟨id, id⟩
  case tallyStateHandoff r =>
    change execTallyStateHandoff r s = _ at h
    refine event_limits h ?_
    split
    · exact .refl s
    · exact (KeepsLimits.takeTallyState ..).after ⟨id, id⟩
  case dispatchRecord r =>
    change execDispatchRecord r s = _ at h
    refine event_limits h ?_
    split
    · exact .refl s
    · next x rest _ =>
      obtain ⟨m, eq⟩ := takeRecord_frame x { s with out := { s.out with records := rest } }
      rw [eq]
      exact ⟨id, id⟩
  case evaluation r =>
    change execEvaluation r s = _ at h
    refine event_limits h ?_
    split
    · exact .refl s
    · next x rest _ =>
      obtain ⟨a, b, c, d, eq⟩ := takeEvaluation_frame x { s with out := { s.out with evaluations := rest } }
      rw [eq]
      exact ⟨id, id⟩
  case calendarStateHandoff r =>
    change execCalendarStateHandoff r s = _ at h
    refine event_limits h ?_
    split
    · exact .refl s
    · next x rest _ =>
      obtain ⟨c, w, eq⟩ := takeCalendarState_frame x.1 x.2 { s with out := { s.out with calendarStates := rest } }
      rw [eq]
      exact ⟨id, id⟩
  case recomputation r =>
    change execRecomputation r s = _ at h
    refine event_limits h ?_
    split
    · exact .refl s
    · exact ⟨id, id⟩
  case boardStateHandoff r order =>
    change execBoardStateHandoff r order s = _ at h
    refine event_limits h ?_
    split
    · exact .refl s
    · next x rest _ =>
      obtain ⟨v, only⟩ := takeBoardState_frame r order { s with out := { s.out with boardStates := rest } }
      exact (KeepsLimits.of_boardsOnly only).after ⟨id, id⟩
  case postedValueHandoff r order =>
    change execPostedValueHandoff r order s = _ at h
    refine event_limits h ?_
    split
    · exact .refl s
    · next x rest _ =>
      obtain ⟨v, only⟩ := setHeld_frame r x.2 order { s with out := { s.out with posted := rest } }
      exact (KeepsLimits.of_boardsOnly only).after ⟨id, id⟩
  case workItemHandoff r k =>
    change execWorkItemHandoff r k s = _ at h
    refine event_limits h ?_
    split
    · exact .refl s
    · next is rest _ =>
      obtain ⟨w, eq⟩ := takeWorkItems_frame is { s with out := { s.out with workItems := rest } }
      rw [eq]
      exact ⟨id, id⟩
  case displaceStep =>
    change execDisplaceStep s = _ at h
    refine event_limits h ?_
    split
    · split
      · exact .displaceStep ..
      · exact .refl s
    · exact .refl s
  case expireStep =>
    change execExpireStep s = _ at h
    refine event_limits h ?_
    split
    · split
      · exact .expireStep ..
      · exact .refl s
    · exact .refl s
  case passChangeWrite =>
    change execPassChangeWrite s = _ at h
    refine event_limits h ?_
    split
    · exact .refl s
    · split
      · next turn => exact .writeChange _ turn
      · exact .refl s
  case endOfDisplacement r =>
    change execEndOfDisplacement r s = _ at h
    refine event_limits h ?_
    split
    · exact .refl s
    · split
      · exact .refl s
      · exact (KeepsLimits.changeHeld ..).after ⟨id, id⟩
  case lastCallRelease =>
    change execLastCallRelease s = _ at h
    refine event_limits h ?_
    split
    · exact .refl s
    · exact (KeepsLimits.changeHeld ..).after ⟨id, id⟩
  case passRequest =>
    change execPassRequest s = _ at h
    refine event_limits h ?_
    split
    · next picked =>
      split
      · exact (KeepsLimits.picked picked).trans (.servePassRequest ..)
      · exact .refl s
    · exact .refl s
  case heldServe =>
    change execHeldServe s = _ at h
    refine event_limits h ?_
    split
    · exact .refl s
    · split
      · exact .refl s
      · next found => exact .serveHeldEntry _ (firstServable_eq_some found).1
  case passCancel =>
    change execPassCancel s = _ at h
    refine event_limits h ?_
    split
    · next picked =>
      split
      · exact ((KeepsLimits.picked picked).trans (.serveCancel ..)).trans (.replyFromQueue ..)
      · exact .refl s
    · exact .refl s
  case passList =>
    change execPassList s = _ at h
    refine event_limits h ?_
    split
    · next picked =>
      split
      · exact (KeepsLimits.picked picked).trans (.replyFromQueue ..)
      · exact .refl s
    · exact .refl s
  case passReplyWrite =>
    change execPassReplyWrite s = _ at h
    refine event_limits h ?_
    split
    · next can => exact (KeepsLimits.expireAllHeld ..).after ((KeepsLimits.resume can).trans ⟨id, id⟩)
    · exact .refl s
  case checkComplete =>
    change execCheckComplete s = _ at h
    refine event_limits h ?_
    split
    · exact .completeCheck s
    · exact .refl s

theorem step_limits {s t : State} (h : step s = .next t) : KeepsLimits s t := by
  unfold step at h
  split at h
  · cases h
    exact .refl s
  · next c rest _ =>
    have taken : KeepsLimits s (s.withPending rest) := ⟨id, id⟩
    exact taken.trans (exec_limits h)

/-- Settles O55: a frame, message or request joins where there is a place, and a waiting producer writes into a queue with
room. -/
theorem queuesBoundedKept : Obligations.QueuesBoundedKept := by
  unfold Obligations.QueuesBoundedKept
  exact fun s t bounded stepped => (step_limits stepped).queues bounded

/-- Settles O57: a credit, the run counter and a mark stay at their limits, and a full mark list takes no further mark. -/
theorem countersKept : Obligations.CountersKept := by
  unfold Obligations.CountersKept
  exact fun s t wf stepped => (step_limits stepped).counters wf

end Sys2Proof.Machine
end

section
/-! PROOFS. The machine, the resets and the pins: one step (O1), every command's answer (O2), RESET_N (O3), the values after
power-on (O4), a line reset (O5) and a soft reset (O6), and the invariants of the state after reset (O52). -/

namespace Sys2Proof.Machine

/-! ## Steps and answers -/

/-- Settles O1: by the definition of a step. -/
theorem stepRunsFrontCommand : Obligations.StepRunsFrontCommand := by
  unfold Obligations.StepRunsFrontCommand
  constructor
  · intro c rest s queue
    simp only [step, queue]
    rfl
  · intro s empty
    simp only [step, empty]

theorem Act.pending {m : Nat} {s t : State} (act : Act m s t) : t.pending = s.pending := by
  cases act with
  | same same => exact same.pending
  | gone gone => exact gone.pending
  | windowsMove r kind sel =>
    obtain ⟨o, eq⟩ := moveWindows_frame r kind sel s
    rw [eq]
    rfl
  | itemCompletes =>
    obtain ⟨w, e, eq⟩ := completeItem_frame _ s
    rw [eq]
  | _ => rfl

theorem Acts.pending {m : Nat} {s t : State} (acts : Acts m s t) : t.pending = s.pending :=
  acts.keep (P := fun u => u.pending = s.pending) (fun _ _ same act => act.pending.trans same) rfl

theorem exec_next (c : Instr) (s : State) : ∃ t, exec c s = .next t := by
  cases c <;> exact ⟨_, rfl⟩

/-- Settles O2: no command but the host's own loading touches the queue. -/
theorem everyCommandCompletes : Obligations.EveryCommandCompletes := by
  unfold Obligations.EveryCommandCompletes
  intro c s
  obtain ⟨t, answer⟩ := exec_next c s
  refine ⟨t, answer, ?_⟩
  rcases exec_acts answer with ⟨m, acts⟩ | ⟨-, opened⟩
  · exact acts.pending
  · exact opened.pending

/-! ## The line reset -/

/-- R147: nothing is posted where nothing changes. -/
theorem postedChanges_self (ys : Table 48 Tally) : postedChanges ys ys = [] := by
  simp [postedChanges]

/-- The tallies of a reset. -/
def restingTallies (m : Nat) (rides : Table 48 RideEntry) : Table 48 Tally :=
  tabulate fun r => { newestMinute := m, posted := restingPosted (look rides r) }

/-- The rides of a reset. -/
def restingRides (rides : Table 48 RideEntry) : Table 48 RideRun :=
  tabulate fun r => { state := restingState (look rides r) }

theorem lineResetState_eq (a : Addr) (s : State) : lineResetState a s =
    { lineResetKept a s with
      rides := restingRides s.rideTable
      tallies := restingTallies 0 s.rideTable
      out := { posted := s.out.posted ++ postedChanges s.tallies (restingTallies 0 s.rideTable) } } := rfl

theorem softResetState_eq (s : State) : softResetState s =
    { softResetBlocks s with
      rides := restingRides s.rideTable
      tallies := restingTallies 0 s.rideTable
      out := { s.out with posted := s.out.posted ++ postedChanges s.tallies (restingTallies 0 s.rideTable) } } := rfl

/-- R195: a release of RESET_N finds nothing that its assertion has not set already. -/
theorem lineResetState_assertReset (a : Addr) (s : State) : lineResetState a (assertReset s) = lineResetState a s := by
  have again : (assertReset s).out.posted ++
      postedChanges (assertReset s).tallies (restingTallies 0 (assertReset s).rideTable) =
        s.out.posted ++ postedChanges s.tallies (restingTallies 0 s.rideTable) := by
    have settled : postedChanges (assertReset s).tallies (restingTallies 0 (assertReset s).rideTable) = [] :=
      postedChanges_self _
    rw [settled, List.append_nil]
    rfl
  rw [lineResetState_eq, lineResetState_eq, again]
  rfl

/-- RESET_N low holds every command that is an event. -/
theorem exec_held {c : Instr} {s : State} (low : s.resetLow = true) (notPower : ∀ a, c ≠ .powerOn a)
    (notReset : ∀ a, c ≠ .lineReset a) (notLink : ∀ p up, c ≠ .linkStateChange p up) (notAssert : c ≠ .resetNAsserted) :
    exec c s = .next s := by
  cases c with
  | powerOn a => exact absurd rfl (notPower a)
  | lineReset a => exact absurd rfl (notReset a)
  | linkStateChange p up => exact absurd rfl (notLink p up)
  | resetNAsserted => exact absurd rfl notAssert
  | _ => exact congrArg Host.Outcome.next (if_pos low)

/-- Settles O3: the assertion is a line reset at the present address, and the release repeats it. -/
theorem pinsAct : Obligations.PinsAct := by
  unfold Obligations.PinsAct
  refine ⟨fun s => ⟨⟨assertReset s, lineResetState s.nodeAddress s, rfl, rfl, rfl, rfl, rfl, rfl, rfl, fun a => ?_⟩,
    fun up => rfl, fun up => rfl⟩, fun c s low notPower notReset notLink notAssert =>
      exec_held low notPower notReset notLink notAssert⟩
  exact congrArg Host.Outcome.next (lineResetState_assertReset a s)

/-! ## The values after a reset -/

/-- Settles O4: by the definition of the state after reset; an entry of a filled table is what fills it. -/
theorem powerOnValues : Obligations.PowerOnValues := by
  unfold Obligations.PowerOnValues
  refine ⟨fun a s => rfl, rfl, rfl, rfl, rfl, rfl, fun r => look_filled .., fun r => ?_, fun p => look_filled ..,
    fun r => ⟨look_filled .., look_filled ..⟩, rfl, rfl, rfl, rfl, rfl, rfl, rfl, rfl, rfl, rfl, rfl,
    fun r => look_filled .., rfl, fun r => look_filled .., fun r => look_filled .., fun i => look_filled ..,
    fun b => look_filled .., fun b => look_filled .., fun r => look_filled .., rfl, rfl, rfl, fun r => look_filled ..,
    rfl, rfl, rfl, rfl, rfl, fun p => ?_, rfl⟩
  · simp [State.reset]
  · cases p <;> exact ⟨rfl, rfl, rfl, rfl, rfl, rfl, rfl, rfl⟩

theorem look_restingRides (rides : Table 48 RideEntry) (r : Ride) : look (restingRides rides) r =
    { look State.reset.rides r with state := if (look rides r).enabled then .closed else .off } := by
  rw [restingRides, look_tabulate, restingState, State.reset, look_filled]

theorem look_restingTallies (rides : Table 48 RideEntry) (r : Ride) : look (restingTallies 0 rides) r =
    { look State.reset.tallies r with posted := if (look rides r).enabled then .closed else .off } := by
  rw [restingTallies, look_tabulate, restingPosted, State.reset, look_filled]

/-- Settles O5: block by block. -/
theorem exec_lineResetState : Obligations.LineResetState := by
  unfold Obligations.LineResetState
  intro a s
  refine ⟨lineResetState a s, rfl, ?_⟩
  rw [lineResetState_eq]
  refine ⟨rfl, rfl, rfl, rfl, rfl, rfl, rfl, rfl, rfl, rfl, rfl, rfl, rfl, rfl, rfl, rfl, rfl, rfl, rfl, ?_, ?_, rfl⟩
  · exact look_restingRides s.rideTable
  · exact look_restingTallies s.rideTable

/-! ## The soft reset -/

/-- R194: the Management Unit serves nothing while a soft reset waits. -/
theorem serve_waiting {s : State} (code : Nat) (f : MgmtCommand → State → Option (Answer × State))
    (waits : s.management.softReset ≠ .none) : serve code f s = s := by
  rcases serve_cases code f s with h | ⟨e, rest, a, u, ready, -⟩
  · exact h
  · simp only [mgmtReady, Bool.and_eq_true, decide_eq_true_eq] at ready
    exact absurd ready.2 waits

theorem event_serve_waiting {s : State} (code : Nat) (f : MgmtCommand → State → Option (Answer × State))
    (waits : s.management.softReset ≠ .none) : event (serve code f) s = .next s := by
  rw [event, serve_waiting code f waits, ite_self]

/-- R184: a command at the head of the intake is served. -/
theorem serve_of_mgmtHead {s : State} {e : MgmtEntry} {rest : List MgmtEntry} {code : Nat}
    {f : MgmtCommand → State → Option (Answer × State)} {a : Answer} {u : State} (head : mgmtHead s e rest)
    (acts : f e.command { s with mgmtIntake := rest } = some (a, u)) :
    event (serve code f) s = .next (mgmtFinish [mgmtReply e code a] u) := by
  obtain ⟨high, idle, none, intake⟩ := head
  rw [event_taken _ high]
  simp [serve, nextCommand, mgmtReady, idle, none, intake, acts]

/-- Settles O6: the action block by block; the command is served at the head of the intake, and none is while the reset
waits. -/
theorem exec_softReset : Obligations.SoftReset := by
  unfold Obligations.SoftReset
  refine ⟨fun s high => ⟨fun notDue => ?_, fun due => ?_⟩, fun e rest s head command => ⟨?_, fun t waits => ?_⟩⟩
  · show event _ s = _
    rw [event_taken _ high, if_neg notDue]
  · refine ⟨softResetState s, ?_, ?_⟩
    · show event _ s = _
      rw [event_taken _ high, if_pos due]
    rw [softResetState_eq]
    refine ⟨rfl, high, rfl, rfl, rfl, rfl, rfl, rfl, rfl, rfl, rfl, rfl, rfl, rfl, rfl, rfl, rfl, ?_, rfl, ?_, ?_, rfl⟩
    · exact fun b => look_tmap ..
    · exact look_restingRides s.rideTable
    · exact look_restingTallies s.rideTable
  · refine serve_of_mgmtHead head ?_
    simp only [command]
    rfl
  · intro c hc
    simp only [List.mem_cons, List.not_mem_nil, or_false] at hc
    rcases hc with rfl | rfl | rfl | rfl | rfl | rfl | rfl | rfl | rfl | rfl | rfl | rfl | rfl | rfl | rfl | rfl | rfl | rfl |
      rfl | rfl
    all_goals exact event_serve_waiting _ _ waits

/-! ## The invariants after reset -/

/-- Settles O52: every list is empty, every count 0, and the phase NIGHT. -/
theorem resetSatisfiesInvariants : Obligations.ResetSatisfiesInvariants := by
  unfold Obligations.ResetSatisfiesInvariants
  have windows (r : Ride) (k : Nat) : windowOf State.reset r k = none := by simp [windowOf, State.reset]
  have bare : ∀ r x, listAt State.reset r x = [] := by
    intro r x
    cases x with
    | window k => simp [listAt, windows]
    | flex => exact look_filled ..
  refine ⟨?_, fun _ => ⟨fun r => ⟨look_filled .., look_filled ..⟩, rfl, rfl, rfl⟩, ?_, ?_, ?_, ?_, ?_, ?_, ?_⟩
  · rw [accountsHold_iff]
    intro r k w window
    rw [windows] at window
    cases window
  · refine ⟨⟨?_, ?_, ?_⟩, ⟨?_, ?_, ?_⟩, ?_, ?_, ?_, ?_, ?_⟩ <;> exact Nat.zero_le _
  · exact ⟨List.Pairwise.nil, Nat.zero_le _, fun g hg => nomatch hg⟩
  · refine ⟨fun r => ?_, Nat.zero_le _, fun h hh => nomatch hh⟩
    rw [State.reset, look_filled, look_filled]
    exact ⟨Nat.zero_le _, List.Pairwise.nil, by simp, by simp⟩
  · exact walkerSound_iff.2 ⟨fun day => (nomatch day), fun _ => ⟨rfl, rfl, fun r => look_filled ..⟩⟩
  · exact holdingsAgree_iff.2 (.empty bare fun c r => rfl)
  · exact ⟨by decide, fun g hg => nomatch hg⟩
  · exact fun day => absurd rfl day

end Sys2Proof.Machine
end

section
/-! PROOFS. Chapter 10, the ports: reception and transmission (O7), and the Classifiers' sorting of what is relayed or dropped
(O8), of the FIELD port's messages (O9) and of the frames that are addressed to the part (O10). -/

namespace Sys2Proof.Machine

theorem flagged_one (f : Flag) (s : State) : flagged s [f] = raise f s := rfl

theorem setPort_portOf (s : State) (p : Port) : setPort s p (portOf s p) = s := by cases p <;> rfl

theorem setPort_setPort (s : State) (p : Port) (a b : PortState) : setPort (setPort s p a) p b = setPort s p b := by
  cases p <;> rfl

theorem otherPort_ne (p : Port) : otherPort p ≠ p := by cases p <;> decide

/-! ## Reception (R161) -/

theorem receivable_iff {f : RxFrame} :
    receivable f = true ↔ f.goodCheck = true ∧ f.whole = true ∧ 60 ≤ f.bytes.length := by
  simp only [receivable, Bool.and_eq_true, decide_eq_true_eq, and_assoc]
  constructor
  · rintro ⟨good, whole, long⟩; exact ⟨good, whole, by omega⟩
  · rintro ⟨good, whole, long⟩; exact ⟨good, whole, by omega⟩

theorem receiveFrame_room {p : Port} {f : RxFrame} {s : State} (good : receivable f = true)
    (room : (portOf s p).receiveBuffer.length < 16) :
    receiveFrame p f s = withReceiveBuffer s p ((portOf s p).receiveBuffer ++ [f.bytes]) := by
  simp only [receiveFrame, good, if_true, Config.rxPlaces, room, withReceiveBuffer]

theorem receiveFrame_full {p : Port} {f : RxFrame} {s : State} (good : receivable f = true)
    (full : 16 ≤ (portOf s p).receiveBuffer.length) : receiveFrame p f s = flagged s [.relayDrop] := by
  simp only [receiveFrame, good, if_true, Config.rxPlaces, Nat.not_lt.2 full, if_false, flagged_one]

theorem receiveFrame_discarded {p : Port} {f : RxFrame} {s : State} (bad : receivable f = false) :
    receiveFrame p f s = s := by
  simp only [receiveFrame, bad, Bool.false_eq_true, if_false]

/-! ## Transmission (R169) -/

section Transmission

variable {p : Port} {s : State}

theorem startTransmission_still (still : (portOf s p).linkUp = false ∨ (portOf s p).transmitting.isSome = true ∨
    ((portOf s p).relayQueue = [] ∧ (portOf s p).partQueue = [])) : startTransmission p s = s := by
  unfold startTransmission
  simp only []
  split
  · next idle =>
    rcases still with down | busy | ⟨noRelay, noPart⟩
    · rw [idle.1] at down; cases down
    · rw [idle.2] at busy; cases busy
    · simp only [nextQueue, noRelay, noPart]
  · rfl

theorem nextQueue_relay {ps : PortState} {f : Frame} {rest : List Frame} (queue : ps.relayQueue = f :: rest)
    (turn : ps.partQueue = [] ∨ ps.nextPreference = .relay) : nextQueue ps = some .relay := by
  unfold nextQueue
  rcases turn with empty | preferred
  · simp only [queue, empty]
  · cases part : ps.partQueue <;> simp only [queue, preferred]

theorem nextQueue_part {ps : PortState} {f : PartFrame} {rest : List PartFrame} (queue : ps.partQueue = f :: rest)
    (turn : ps.relayQueue = [] ∨ ps.nextPreference = .part) : nextQueue ps = some .part := by
  unfold nextQueue
  rcases turn with empty | preferred
  · simp only [queue, empty]
  · cases relay : ps.relayQueue <;> simp only [queue, preferred]

variable (up : (portOf s p).linkUp = true) (idle : (portOf s p).transmitting = none)
include up idle

theorem startTransmission_relay {f : Frame} {rest : List Frame} (queue : (portOf s p).relayQueue = f :: rest)
    (turn : (portOf s p).partQueue = [] ∨ (portOf s p).nextPreference = .relay) :
    startTransmission p s = setPort s p { portOf s p with
      relayQueue := rest, transmitting := some f, nextPreference := .part } := by
  simp only [startTransmission, up, idle, and_self, if_true, nextQueue_relay queue turn, queue]

theorem startTransmission_part {f : PartFrame} {rest : List PartFrame} (queue : (portOf s p).partQueue = f :: rest)
    (turn : (portOf s p).relayQueue = [] ∨ (portOf s p).nextPreference = .part) :
    startTransmission p s = { setPort s p { portOf s p with
        partQueue := rest, transmitting := some (wireBytes s.nodeAddress f), nextPreference := .relay } with
      management := { s.management with softReset :=
        if p = .trunk ∧ isSoftResetReply f = true ∧ s.management.softReset = .replyPending then .replySending
        else s.management.softReset } } := by
  simp only [startTransmission, up, idle, and_self, if_true, nextQueue_part queue turn, queue, noteReplySending,
    setPort_management]
  split
  · rfl
  · cases p <;> rfl

end Transmission

theorem endTransmission_eq (p : Port) (s : State) :
    endTransmission p s = { setPort s p { portOf s p with transmitting := none } with
      management := { s.management with softReset :=
        if p = .trunk ∧ s.management.softReset = .replySending then .due else s.management.softReset } } := by
  unfold endTransmission
  simp only [setPort_management]
  split
  · rfl
  · cases p <;> rfl

/-- Settles O7: by whether the frame is good and there is a place, and by the queue that is sent from. -/
theorem receptionAndEgress : Obligations.ReceptionAndEgress := by
  unfold Obligations.ReceptionAndEgress
  refine ⟨fun p f s high => ⟨fun good whole long => ⟨fun room => ?_, fun full => ?_⟩, fun bad => ?_⟩,
    fun p s high => ⟨fun still => ?_, fun up idle => ⟨fun f rest queue turn => ?_, fun f rest queue turn => ?_⟩,
      fun idle => ?_, fun busy => ?_⟩⟩
  · exact (event_taken _ high).trans (congrArg _ (receiveFrame_room (receivable_iff.2 ⟨good, whole, long⟩) room))
  · exact (event_taken _ high).trans (congrArg _ (receiveFrame_full (receivable_iff.2 ⟨good, whole, long⟩) full))
  · refine (event_taken _ high).trans (congrArg _ (receiveFrame_discarded (Bool.eq_false_iff.2 fun good => ?_)))
    obtain ⟨check, whole, long⟩ := receivable_iff.1 good
    rcases bad with h | h | h
    · rw [check] at h; cases h
    · rw [whole] at h; cases h
    · omega
  · exact (event_taken _ high).trans (congrArg _ (startTransmission_still still))
  · exact (event_taken _ high).trans (congrArg _ (startTransmission_relay up idle queue turn))
  · exact (event_taken _ high).trans (congrArg _ (startTransmission_part up idle queue turn))
  · show event _ s = _
    rw [event_taken _ high, idle]
    rfl
  · show event _ s = _
    rw [event_taken _ high, if_pos busy, endTransmission_eq]

/-! ## The Classifier takes a frame -/

theorem exec_classify_of_head {s : State} {p : Port} {f : Frame} {rest : List Frame} (head : classifierHead s p f rest) :
    exec (.classifyFrame p) s = .next (sortFrame p f (withReceiveBuffer s p rest)) := by
  obtain ⟨high, free, buffer⟩ := head
  show event _ s = _
  rw [event_taken _ high]
  unfold classify
  simp only []
  split
  · next held => rw [free] at held; cases held
  · split
    · next empty => rw [buffer] at empty; cases empty
    · next found =>
      rw [buffer] at found
      cases found
      rfl

theorem relayTo_room {out : Port} {f : Frame} {s : State} (room : (portOf s out).relayQueue.length < 128) :
    relayTo out f s = setPort s out { portOf s out with relayQueue := (portOf s out).relayQueue ++ [f] } := by
  simp only [relayTo, Config.relayPlaces, room, if_true]

theorem relayTo_full {out : Port} {f : Frame} {s : State} (full : 128 ≤ (portOf s out).relayQueue.length) :
    relayTo out f s = flagged s [.relayDrop] := by
  simp only [relayTo, Config.relayPlaces, Nat.not_lt.2 full, if_false, flagged_one]

theorem portOf_withReceiveBuffer_other (s : State) (p : Port) (fs : List Frame) :
    portOf (withReceiveBuffer s p fs) (otherPort p) = portOf s (otherPort p) := by
  cases p <;> rfl

theorem allOnes_eq : BitVec.allOnes 16 = 0xFFFF := rfl

theorem sortFrame_foreign {p : Port} {f : Frame} (s : State) (foreign : examine f = .foreign) :
    sortFrame p f s = relayTo (otherPort p) f s := by
  simp only [sortFrame, foreign]

theorem sortFrame_malformed {p : Port} {f : Frame} (s : State) (malformed : examine f = .malformed) :
    sortFrame p f s = flagged s [.badMessage] := by
  simp only [sortFrame, malformed, flagged_one]

/-- R162: a frame to the broadcast address, or from an address that is none of a node's. -/
theorem sortFrame_unaddressed {p : Port} {f : Frame} {dst src : Addr} {k : Kind} {body : List Byte} (s : State)
    (found : examine f = .queueNet dst src k body) (unaddressed : dst = 0xFFFF ∨ src = 0 ∨ src = 0xFFFF) :
    sortFrame p f s = relayTo (otherPort p) f s := by
  simp only [sortFrame, found, allOnes_eq, if_pos unaddressed]

theorem sortFrame_sortable {p : Port} {f : Frame} {dst src : Addr} {k : Kind} {body : List Byte} (s : State)
    (found : sortable f dst src k body) : sortFrame p f s = match p with
      | .field => sortField f dst src k body s
      | .trunk => sortTrunk f dst src k body s := by
  obtain ⟨examined, toOne, fromSome, fromOne⟩ := found
  have addressed : ¬(dst = BitVec.allOnes 16 ∨ src = 0 ∨ src = BitVec.allOnes 16) := by
    rintro (h | h | h)
    · exact toOne h
    · exact fromSome h
    · exact fromOne h
  simp only [sortFrame, examined, if_neg addressed] <;> cases p <;> rfl

/-- R162: a frame is addressed to the part only under a strap address other than 0. -/
theorem addressedToPart_iff {s : State} {dst : Addr} :
    addressedToPart s dst = true ↔ s.nodeAddress ≠ 0 ∧ dst = s.nodeAddress := by
  simp [addressedToPart]

/-- R164: at the TRUNK port what is not addressed to the part is relayed. -/
theorem sortTrunk_elsewhere {f : Frame} {dst src : Addr} {k : Kind} {body : List Byte} {s : State}
    (elsewhere : s.nodeAddress = 0 ∨ dst ≠ s.nodeAddress) : sortTrunk f dst src k body s = relayTo .field f s := by
  have other : ¬addressedToPart s dst = true := fun here => by
    obtain ⟨some, same⟩ := addressedToPart_iff.1 here
    rcases elsewhere with none | differ
    · exact some none
    · exact differ same
  rw [sortTrunk, if_neg other]

/-- Settles O8: by what the frame is found to be; each of the three ways to be relayed relays it to the other port. -/
theorem classifierRelaysAndDrops : Obligations.ClassifierRelaysAndDrops := by
  unfold Obligations.ClassifierRelaysAndDrops
  intro p s
  refine ⟨fun held => ?_, fun f rest head => ⟨fun malformed => ?_, fun relays => ?_⟩⟩
  · show event _ s = _
    cases low : s.resetLow with
    | false =>
      rw [event_taken _ low]
      simp only [classify, held, if_true]
    | true => exact event_held _ low
  · rw [exec_classify_of_head head, sortFrame_malformed _ malformed]
  · have relayed : sortFrame p f (withReceiveBuffer s p rest) = relayTo (otherPort p) f (withReceiveBuffer s p rest) := by
      rcases relays with foreign | ⟨dst, src, k, body, found, unaddressed⟩ | ⟨rfl, dst, src, k, body, found, elsewhere⟩
      · exact sortFrame_foreign _ foreign
      · exact sortFrame_unaddressed _ found unaddressed
      · exact (sortFrame_sortable _ found).trans (sortTrunk_elsewhere elsewhere)
    have same := portOf_withReceiveBuffer_other s p rest
    rw [exec_classify_of_head head, relayed]
    refine ⟨fun room => ?_, fun full => ?_⟩
    · rw [relayTo_room (same.symm ▸ room), same]
    · rw [relayTo_full (same.symm ▸ full)]

/-! ## The FIELD port's messages (R163) -/

theorem relayTo_trunk (f : Frame) (src : Addr) (s : State) : relayTo .trunk f s = sortedOnField s f src none true := by
  by_cases lane : s.trunkPort.relayQueue.length < 128 <;> by_cases room : s.fieldIntake.length < 256 <;>
    simp [relayTo, sortedOnField, flagged, raise, portOf, setPort, Config.relayPlaces, lane, room]

theorem joinFieldIntake_eq (f : Frame) (src : Addr) (b : FieldBody) (s : State) :
    joinFieldIntake src b s = sortedOnField s f src (some b) false := by
  by_cases room : s.fieldIntake.length < 256 <;>
    simp [joinFieldIntake, sortedOnField, flagged, raise, Config.fieldPlaces, room]

theorem relayTo_joinFieldIntake (f : Frame) (src : Addr) (b : FieldBody) (s : State) :
    relayTo .trunk f (joinFieldIntake src b s) = sortedOnField s f src (some b) true := by
  by_cases lane : s.trunkPort.relayQueue.length < 128 <;> by_cases room : s.fieldIntake.length < 256 <;>
    simp [relayTo, joinFieldIntake, sortedOnField, flagged, raise, portOf, setPort, Config.relayPlaces,
      Config.fieldPlaces, lane, room]

theorem sortTap_eq (f : Frame) (src : Addr) (i : ReaderIx) (body : List Byte) (s : State) :
    sortTap f src i body s = sortedOnField s f src
      ((actedUnder (look s.readers i).claimMode).map fun m => .tap i m (cred6 body 0) (num1 body 6) (word2 body 8))
      (decide ((look s.readers i).claimMode ≠ .own)) := by
  unfold sortTap
  cases mode : (look s.readers i).claimMode with
  | forward => exact relayTo_trunk f src s
  | observe => exact relayTo_joinFieldIntake ..
  | own => exact joinFieldIntake_eq ..
  | ownCopy => exact relayTo_joinFieldIntake ..

theorem sortController_ride {f : Frame} {src : Addr} {b : FieldBody} {s : State} {r : Ride}
    (ride : rideByController s src = some r) :
    sortController f src b s = sortedOnField s f src (some b) (look s.rideTable r).controllerRelay := by
  show _ = sortedOnField s f src (some b) (rideEntry s r).controllerRelay
  simp only [sortController, ride]
  by_cases relays : (rideEntry s r).controllerRelay = true
  · rw [if_pos relays, relays]
    exact relayTo_joinFieldIntake ..
  · rw [if_neg relays, Bool.eq_false_iff.2 relays]
    exact joinFieldIntake_eq ..

theorem sortController_none {f : Frame} {src : Addr} {b : FieldBody} {s : State} (noRide : rideByController s src = none) :
    sortController f src b s = sortedOnField s f src none true := by
  simp only [sortController, noRide]
  exact relayTo_trunk f src s

section Elsewhere

variable {f : Frame} {dst src : Addr} {body : List Byte} {s : State} (elsewhere : ¬(s.nodeAddress ≠ 0 ∧ dst = s.nodeAddress))
include elsewhere

theorem not_addressedToPart : ¬addressedToPart s dst = true := fun here => elsewhere (addressedToPart_iff.1 here)

theorem sortField_tap {i : ReaderIx} (reader : readerByAddress s src = some i) :
    sortField f dst src .tap body s = sortTap f src i body s := by
  rw [sortField, if_neg (by decide), if_neg (not_addressedToPart elsewhere)]
  simp only [reader]

theorem sortField_tap_none (reader : readerByAddress s src = none) :
    sortField f dst src .tap body s = relayTo .trunk f s := by
  rw [sortField, if_neg (by decide), if_neg (not_addressedToPart elsewhere)]
  simp only [reader]

theorem sortField_dispatch :
    sortField f dst src .dispatch body s = sortController f src (.dispatch (num1 body 0)) s := by
  rw [sortField, if_neg (by decide), if_neg (not_addressedToPart elsewhere)]

theorem sortField_rideStatus :
    sortField f dst src .rideStatus body s = sortController f src (.rideStatus (num1 body 0)) s := by
  rw [sortField, if_neg (by decide), if_neg (not_addressedToPart elsewhere)]

theorem sortField_other {k : Kind} (other : k ∉ [Kind.tap, .dispatch, .rideStatus, .mgmtCommand]) :
    sortField f dst src k body s = relayTo .trunk f s := by
  simp only [List.mem_cons, List.not_mem_nil, or_false, not_or] at other
  obtain ⟨notTap, notDispatch, notStatus, notCommand⟩ := other
  rw [sortField, if_neg notCommand, if_neg (not_addressedToPart elsewhere)]
  · exact notTap
  · exact notDispatch
  · exact notStatus

end Elsewhere

/-- Settles O9: by the kind of the frame, and by what its source is in the tables. -/
theorem fieldSorting : Obligations.FieldSorting := by
  unfold Obligations.FieldSorting
  intro f rest dst src k body s head found elsewhere s1
  have taken : exec (.classifyFrame .field) s = .next (sortField f dst src k body s1) :=
    (exec_classify_of_head head).trans (congrArg _ (sortFrame_sortable _ found))
  have elsewhere' : ¬(s1.nodeAddress ≠ 0 ∧ dst = s1.nodeAddress) := elsewhere
  rw [taken]
  refine ⟨?tap, ?dispatch, ?rideStatus, ?other, ?command⟩
  case tap =>
    rintro i rfl reader
    rw [sortField_tap elsewhere' (i := i) reader, sortTap_eq]
    rfl
  case dispatch =>
    rintro r rfl ride
    rw [sortField_dispatch elsewhere', sortController_ride (s := s1) (r := r) ride]
    rfl
  case rideStatus =>
    rintro r rfl ride
    rw [sortField_rideStatus elsewhere', sortController_ride (s := s1) (r := r) ride]
    rfl
  case other =>
    rintro (⟨rfl, reader⟩ | ⟨rfl | rfl, ride⟩ | others)
    · rw [sortField_tap_none elsewhere' reader, relayTo_trunk f src]
    · rw [sortField_dispatch elsewhere', sortController_none (s := s1) ride]
    · rw [sortField_rideStatus elsewhere', sortController_none (s := s1) ride]
    · rw [sortField_other elsewhere' others, relayTo_trunk f src]
  case command =>
    rintro rfl
    rfl

/-! ## Frames addressed to the part (R79, R164, R171, R172) -/

theorem requestOf_port {p : Port} {src : Addr} {k : Kind} {body : List Byte} {q : Request}
    (h : requestOf p src k body = some q) : q.port = p := by
  cases k <;> simp only [requestOf, Option.some.injEq, reduceCtorEq] at h <;> rw [← h]

theorem requestOf_mgmtCommand (p : Port) (src : Addr) (body : List Byte) : requestOf p src .mgmtCommand body = none := rfl

/-- R163, R164: a frame that is addressed to the part is a request of its port, a command from the TRUNK, or neither. -/
theorem sortFrame_addressed {p : Port} {f : Frame} {dst src : Addr} {k : Kind} {body : List Byte} {s : State}
    (found : sortable f dst src k body) (owned : s.nodeAddress ≠ 0) (here : dst = s.nodeAddress) :
    (∀ q, requestOf p src k body = some q → sortFrame p f s = sortRequest q s) ∧
    (∀ e, p = .trunk → k = .mgmtCommand → entryOf src body = some e → sortFrame p f s = joinMgmtIntake e s) ∧
    (requestOf p src k body = none → k ≠ .mgmtCommand ∨ p = .field → sortFrame p f s = flagged s [.badMessage]) := by
  have addressed : addressedToPart s dst = true := addressedToPart_iff.2 ⟨owned, here⟩
  rw [sortFrame_sortable _ found]
  refine ⟨fun q request => ?_, ?_, fun absent other => ?_⟩
  · have notCommand : k ≠ .mgmtCommand := by
      rintro rfl
      cases request
    cases p with
    | field => simp only [sortField, if_neg notCommand, addressed, if_true, request]
    | trunk => simp only [sortTrunk, if_neg notCommand, addressed, if_true, request]
  · rintro e rfl rfl entry
    simp only [sortTrunk, addressed, if_true, entry]
  · cases p with
    | field =>
      by_cases command : k = .mgmtCommand
      · simp only [sortField, if_pos command, flagged_one]
      · simp only [sortField, if_neg command, addressed, if_true, absent, flagged_one]
    | trunk =>
      have notCommand : k ≠ .mgmtCommand := by simpa using other
      simp only [sortTrunk, if_neg notCommand, addressed, if_true, absent, flagged_one]

section Request

variable {q : Request} {p : Port} {s : State} (port : q.port = p)
include port

theorem sortRequest_waiting (waits : (portOf s p).fullReply.isSome = true) :
    sortRequest q s = setPort s p { portOf s p with heldRequest := some q } := by
  subst port
  simp only [sortRequest, waits, if_true]

theorem sortRequest_room (free : (portOf s p).fullReply = none) (room : (queueOfPort s p).length < queuePlaces p) :
    sortRequest q s = setQueue p (queueOfPort s p ++ [q]) s := by
  subst port
  simp only [sortRequest, free, Option.isSome_none, Bool.false_eq_true, if_false, joinQueue, room, if_true]

theorem sortRequest_full (free : (portOf s p).fullReply = none) (full : queuePlaces p ≤ (queueOfPort s p).length) :
    sortRequest q s = answerFull q s := by
  subst port
  simp only [sortRequest, free, Option.isSome_none, Bool.false_eq_true, if_false, joinQueue, Nat.not_lt.2 full]

theorem answerFull_room (room : (portOf s p).partQueue.length + (portOf s p).waiters.length < 128) :
    answerFull q s = setPort s p { portOf s p with
      partQueue := (portOf s p).partQueue ++ [⟨q.source, .passReply q.tag .queueFull⟩] } := by
  subst port
  simp only [answerFull, hasRoom, Config.partPlaces, room, decide_true, if_true, writeFrame, replyFrame]

theorem answerFull_wait (full : 128 ≤ (portOf s p).partQueue.length + (portOf s p).waiters.length) :
    answerFull q s = setPort s p { portOf s p with
      waiters := (portOf s p).waiters ++ [.requestIntake]
      fullReply := some ⟨q.source, .passReply q.tag .queueFull⟩ } := by
  subst port
  simp only [answerFull, hasRoom, Config.partPlaces, Nat.not_lt.2 full, decide_false, Bool.false_eq_true, if_false,
    beginWait, replyFrame, portOf_setPort_same, setPort_setPort]

end Request

theorem queuePlaces_eq (p : Port) : queuePlaces p = if p = .field then 32 else 64 := by cases p <;> rfl

theorem joinMgmtIntake_room {e : MgmtEntry} {s : State} (room : s.mgmtIntake.length < 16) :
    joinMgmtIntake e s = { s with mgmtIntake := s.mgmtIntake ++ [e] } := by
  simp only [joinMgmtIntake, Config.mgmtPlaces, room, if_true]

theorem joinMgmtIntake_full {e : MgmtEntry} {s : State} (full : 16 ≤ s.mgmtIntake.length) :
    joinMgmtIntake e s = flagged s [.intakeOverflow] := by
  simp only [joinMgmtIntake, Config.mgmtPlaces, Nat.not_lt.2 full, if_false, flagged_one]

theorem portOf_withReceiveBuffer_same (s : State) (p : Port) (fs : List Frame) :
    portOf (withReceiveBuffer s p fs) p = { portOf s p with receiveBuffer := fs } := portOf_setPort_same ..

theorem queueOfPort_withReceiveBuffer (s : State) (p q : Port) (fs : List Frame) :
    queueOfPort (withReceiveBuffer s p fs) q = queueOfPort s q := by cases p <;> cases q <;> rfl

/-- Settles O10: a request is held, joins or is answered, a command joins or is lost, and any other frame is bad. -/
theorem addressedFrames : Obligations.AddressedFrames := by
  unfold Obligations.AddressedFrames
  intro p f rest dst src k body s head found owned here s1
  have node : s1.nodeAddress = s.nodeAddress := by cases p <;> rfl
  have intake : s1.mgmtIntake = s.mgmtIntake := by cases p <;> rfl
  have port : portOf s1 p = { portOf s p with receiveBuffer := rest } := portOf_withReceiveBuffer_same ..
  have queue : queueOfPort s1 p = queueOfPort s p := queueOfPort_withReceiveBuffer ..
  obtain ⟨requests, commands, others⟩ := sortFrame_addressed (p := p) (s := s1) found (node ▸ owned) (node ▸ here)
  rw [exec_classify_of_head head]
  refine ⟨fun q request => ?_, fun e atTrunk command entry => ?_, fun absent other => congrArg _ (others absent other)⟩
  · have itsPort := requestOf_port request
    rw [requests q request]
    refine ⟨fun waits => ?_, fun free room => ?_, fun free full => ⟨fun room => ?_, fun noRoom => ?_⟩⟩
    · rw [sortRequest_waiting itsPort (by rw [port]; exact waits)]
    · rw [← queuePlaces_eq] at room
      rw [sortRequest_room itsPort (by rw [port]; exact free) (by rw [queue]; exact room), queue]
    · rw [← queuePlaces_eq] at full
      rw [sortRequest_full itsPort (by rw [port]; exact free) (by rw [queue]; exact full),
        answerFull_room itsPort (by rw [port]; exact room), port]
    · rw [← queuePlaces_eq] at full
      rw [sortRequest_full itsPort (by rw [port]; exact free) (by rw [queue]; exact full),
        answerFull_wait itsPort (by rw [port]; exact noRoom), port]
  · rw [commands e atTrunk command entry]
    refine ⟨fun room => ?_, fun full => ?_⟩
    · rw [joinMgmtIntake_room (by rw [intake]; exact room), intake]
    · rw [joinMgmtIntake_full (by rw [intake]; exact full)]

end Sys2Proof.Machine
end

section
/-! PROOFS. Chapter 10, the waiting producers: whose turn it is and what is then written (O11), and how the request intakes and
the Walker go on (O12). -/

namespace Sys2Proof.Machine

/-! ## Frames only join a part output queue -/

/-- What stands in a port's part output queue stands there still. -/
def Grows (p : Port) (s t : State) : Prop := (portOf s p).partQueue <+: (portOf t p).partQueue

theorem Grows.refl (p : Port) (s : State) : Grows p s s := List.prefix_refl _

theorem Grows.trans {p : Port} {s t u : State} (h : Grows p s t) (h' : Grows p t u) : Grows p s u := List.IsPrefix.trans h h'

theorem Grows.of_port {p : Port} {s t : State} (same : portOf t p = portOf s p) : Grows p s t := by
  rw [Grows, same]

theorem grows_writeFrame (p q : Port) (f : PartFrame) (s : State) : Grows p s (writeFrame q f s) := by
  unfold Grows writeFrame
  cases p <;> cases q <;> simp [portOf, setPort]

theorem grows_writeAll (p : Port) (w : Producer) (fs : List (Port × PartFrame)) (s : State) :
    Grows p s (writeAll w fs s).1 := by
  induction fs generalizing s with
  | nil => exact .refl p s
  | cons x rest ih =>
    obtain ⟨q, f⟩ := x
    unfold writeAll
    split
    · exact (grows_writeFrame p q f s).trans (ih _)
    · unfold Grows beginWait
      cases p <;> cases q <;> simp [portOf, setPort]

theorem grows_send (p : Port) (w : Producer) (box new : List (Port × PartFrame)) (s : State) :
    Grows p s (send w box new s).1 := by
  cases box with
  | nil => exact grows_writeAll p w new s
  | cons x xs => exact .refl p s

theorem grows_engineSend (p : Port) (fs : List (Port × PartFrame)) (s : State) : Grows p s (engineSend fs s) := by
  refine (grows_send p .passEngine s.engine.outbox fs s).trans (.of_port ?_)
  cases p <;> rfl

theorem grows_expireAllHeld (p : Port) (n : Nat) (s : State) : Grows p s (expireAllHeld n s) := by
  induction n generalizing s with
  | zero => exact .refl p s
  | succ n ih =>
    unfold expireAllHeld
    split
    · exact .refl p s
    · refine Grows.trans ?_ (ih _)
      unfold expireHeld
      split
      · exact .refl p s
      · refine Grows.trans (.of_port ?_) (grows_engineSend p _ _)
        cases p <;> rfl

theorem grows_mgmtWrite (p : Port) (fs : List (Port × PartFrame)) (s : State) : Grows p s (mgmtWrite fs s) := by
  refine (grows_send p .management s.management.outbox fs s).trans (.of_port ?_)
  cases p <;> rfl

theorem grows_mgmtFinish (p : Port) (fs : List (Port × PartFrame)) (s : State) : Grows p s (mgmtFinish fs s) := by
  unfold mgmtFinish
  split
  · refine Grows.trans (.of_port ?_) (grows_mgmtWrite p _ _)
    cases p <;> rfl
  · exact grows_mgmtWrite ..

/-! ## A waiting producer's first frame -/

/-- R168: the frame that a producer waits with is written, and the producer waits no longer. -/
def writtenAfterWait (p : Port) (w : Producer) (f : PartFrame) (s : State) : State :=
  setPort s p { portOf s p with partQueue := (portOf s p).partQueue ++ [f], waiters := (portOf s p).waiters.erase w }

theorem writeFrame_endWait (p : Port) (w : Producer) (f : PartFrame) (s : State) :
    writeFrame p f (endWait p w s) = writtenAfterWait p w f s := by
  simp only [writeFrame, endWait, portOf_setPort_same, setPort_setPort]
  rfl

theorem resume_cons (w : Producer) (p : Port) (f : PartFrame) (rest : List (Port × PartFrame)) (s : State) :
    resume w ((p, f) :: rest) s = writeAll w rest (writtenAfterWait p w f s) := by
  rw [resume, writeFrame_endWait]

theorem partQueue_writtenAfterWait (p : Port) (w : Producer) (f : PartFrame) (s : State) :
    (portOf (writtenAfterWait p w f s) p).partQueue = (portOf s p).partQueue ++ [f] := by
  simp [writtenAfterWait]

theorem grows_resume (p : Port) (w : Producer) (f : PartFrame) (rest : List (Port × PartFrame)) (s : State) :
    (portOf s p).partQueue ++ [f] <+: (portOf (resume w ((p, f) :: rest) s).1 p).partQueue := by
  rw [resume_cons, ← partQueue_writtenAfterWait p w f s]
  exact grows_writeAll p w rest _

theorem canResume_cons (w : Producer) (p : Port) (f : PartFrame) (rest : List (Port × PartFrame)) (s : State) :
    canResume w ((p, f) :: rest) s = hasTurn (portOf s p) w := rfl

theorem expireHeld_idle {s : State} (none : ∀ e ∈ s.engine.heldList, e.expiring = false) : expireHeld s = s := by
  rw [expireHeld, takeFirst_eq_none.2 none]

theorem expireAllHeld_idle {s : State} (n : Nat) (none : ∀ e ∈ s.engine.heldList, e.expiring = false) :
    expireAllHeld n s = s := by
  induction n with
  | zero => rfl
  | succ n ih => rw [expireAllHeld, expireHeld_idle none, ih, ite_self]

/-! ## The Management Unit's frames -/

theorem mgmtResume_of_turn {p : Port} {f : PartFrame} {rest : List (Port × PartFrame)} {s : State} {reply : Bool}
    (box : s.management.outbox = (p, f) :: rest) (turn : hasTurn (portOf s p) .management = true)
    (kind : isMgmtReply f = reply) : mgmtResume reply s =
      mgmtFinish [] { (resume .management ((p, f) :: rest) s).1 with
        management := { (resume .management ((p, f) :: rest) s).1.management with
          outbox := (resume .management ((p, f) :: rest) s).2 } } := by
  unfold mgmtResume
  split
  · next empty => rw [box] at empty; cases empty
  · next q g rest' found =>
    rw [box] at found
    cases found
    simp only [box, canResume_cons, turn, kind, and_self, if_true]

/-- R193: with no NOTICE due and nothing to write an event of the Management Unit ends as it is. -/
theorem mgmtFinish_nothing {s : State} (noNotice : noticeDue s = false) (idle : s.management.outbox = []) :
    mgmtFinish [] s = s := by
  simp only [mgmtFinish, noNotice, Bool.false_eq_true, if_false, mgmtWrite, send, idle, writeAll]
  rw [← idle]

/-- R184, R193: a frame that the Management Unit waits with, in its turn. -/
theorem mgmtResume_written {p : Port} {f : PartFrame} {rest : List (Port × PartFrame)} {s : State} {reply : Bool}
    (box : s.management.outbox = (p, f) :: rest) (turn : hasTurn (portOf s p) .management = true)
    (kind : isMgmtReply f = reply) :
    (portOf s p).partQueue ++ [f] <+: (portOf (mgmtResume reply s) p).partQueue ∧
      (rest = [] → noticeDue s = false → mgmtResume reply s =
        { writtenAfterWait p .management f s with management := { s.management with outbox := [] } }) := by
  rw [mgmtResume_of_turn box turn kind]
  refine ⟨?_, ?_⟩
  · refine (grows_resume p .management f rest s).trans (Grows.trans (.of_port ?_) (grows_mgmtFinish p [] _))
    cases p <;> rfl
  · rintro rfl noNotice
    rw [resume_cons]
    simp only [writeAll]
    have management : (writtenAfterWait p .management f s).management = s.management := setPort_management ..
    rw [management, mgmtFinish_nothing]
    · rw [← noNotice]
      cases p <;> rfl
    · rfl

/-! ## Whose turn it is -/

theorem hasTurn_eq_true {ps : PortState} {who : Producer} :
    hasTurn ps who = true ↔ ps.waiters.head? = some who ∧ ps.partQueue.length < 128 := by
  rw [hasTurn, Bool.and_eq_true, beq_iff_eq]
  exact and_congr Iff.rfl decide_eq_true_iff

theorem mgmtResume_no_turn {p : Port} {f : PartFrame} {rest : List (Port × PartFrame)} {s : State} (reply : Bool)
    (box : s.management.outbox = (p, f) :: rest) (no : hasTurn (portOf s p) .management = false) :
    mgmtResume reply s = s := by
  unfold mgmtResume
  split
  · rfl
  · rw [box, canResume_cons, no]
    simp

/-- Settles O11: a producer with its turn writes its first frame, and what follows only joins the queue behind it. -/
theorem waitingFramesAreWritten : Obligations.WaitingFramesAreWritten := by
  unfold Obligations.WaitingFramesAreWritten
  intro p f rest s high queued
  refine ⟨fun who => hasTurn_eq_true, fun box no => ?_, fun box no => ?_, fun box no => ⟨?_, ?_⟩, fun full no => ?_,
    fun waits no => ?_, fun box turn => ?_, fun box turn => ?_, fun box turn kind => ?_, fun box turn kind => ?_⟩
  · show event _ s = _
    rw [event_taken _ high, box, canResume_cons, no]
    rfl
  · show event _ s = _
    rw [event_taken _ high, box, canResume_cons, no]
    rfl
  · exact (event_taken _ high).trans (congrArg _ (mgmtResume_no_turn true box no))
  · exact (event_taken _ high).trans (congrArg _ (mgmtResume_no_turn false box no))
  · show execQueueFullWrite p s = _
    rw [execQueueFullWrite, event_taken _ high]
    simp only [full, no, Bool.false_eq_true, if_false]
  · show execPassChangeWrite s = _
    rw [execPassChangeWrite, event_taken _ high]
    simp only [waits, no, Bool.false_eq_true, if_false]
  · have taken : exec .verdictWrite s = .next { (resume .admission ((p, f) :: rest) s).1 with
        admission := { outbox := (resume .admission ((p, f) :: rest) s).2 } } := by
      show event _ s = _
      rw [event_taken _ high, box, canResume_cons, if_pos turn]
    rw [taken]
    refine ⟨⟨_, rfl, (grows_resume p .admission f rest s).trans (Grows.of_port ?_)⟩, ?_⟩
    · cases p <;> rfl
    · rintro rfl
      rw [resume_cons]
      rfl
  · have taken : exec .passReplyWrite s = .next (expireAllHeld 8 { (resume .passEngine ((p, f) :: rest) s).1 with
        engine := { (resume .passEngine ((p, f) :: rest) s).1.engine with
          outbox := (resume .passEngine ((p, f) :: rest) s).2 } }) := by
      show event _ s = _
      rw [event_taken _ high, box, canResume_cons, if_pos turn]
      rfl
    rw [taken]
    refine ⟨⟨_, rfl, (grows_resume p .passEngine f rest s).trans (Grows.trans (.of_port ?_) (grows_expireAllHeld p 8 _))⟩, ?_⟩
    · cases p <;> rfl
    · rintro rfl none
      rw [resume_cons]
      simp only [writeAll]
      have engine : (writtenAfterWait p .passEngine f s).engine = s.engine := setPort_engine ..
      refine congrArg Host.Outcome.next ((expireAllHeld_idle 8 ?_).trans ?_)
      · rw [engine]
        exact none
      · rw [engine]
        rfl
  · obtain ⟨grows, exact_⟩ := mgmtResume_written box turn kind
    have taken : exec .mgmtReplyWrite s = .next (mgmtResume true s) := event_taken _ high
    rw [taken]
    exact ⟨⟨_, rfl, grows⟩, fun last noNotice => congrArg _ (exact_ last noNotice)⟩
  · obtain ⟨grows, exact_⟩ := mgmtResume_written box turn kind
    have taken : exec .noticeWrite s = .next (mgmtResume false s) := event_taken _ high
    rw [taken]
    exact ⟨⟨_, rfl, grows⟩, fun last noNotice => congrArg _ (exact_ last noNotice)⟩

/-! ## The request intake goes on (R79, R172) -/

section JoinQueue

variable {q : Request} {s : State}

theorem joinQueue_room (room : (queueOfPort s q.port).length < queuePlaces q.port) :
    joinQueue q s = setQueue q.port (queueOfPort s q.port ++ [q]) s := by
  rw [joinQueue, if_pos room]

theorem joinQueue_full (full : queuePlaces q.port ≤ (queueOfPort s q.port).length) : joinQueue q s = answerFull q s := by
  rw [joinQueue, if_neg (Nat.not_lt.2 full)]

end JoinQueue

/-- R172: the intake of a port after its waiting QUEUE_FULL is written. -/
def intakeFreed (p : Port) (f : PartFrame) (s : State) : State :=
  setPort s p { portOf s p with
    partQueue := (portOf s p).partQueue ++ [f]
    waiters := (portOf s p).waiters.erase .requestIntake
    fullReply := none
    heldRequest := none }

theorem writeFull_eq (p : Port) (f : PartFrame) (s : State) : writeFull p f s =
    match (portOf s p).heldRequest with
    | none => intakeFreed p f s
    | some q => joinQueue q (intakeFreed p f s) := by
  unfold writeFull
  rw [writeFrame_endWait]
  simp only [writtenAfterWait, portOf_setPort_same, setPort_setPort]
  rfl

theorem queueOfPort_intakeFreed (p q : Port) (f : PartFrame) (s : State) :
    queueOfPort (intakeFreed p f s) q = queueOfPort s q := by
  cases p <;> cases q <;> rfl

/-! ## The Walker goes on (R122, R123) -/

/-- R122: the waiting PASS_CHANGE is written. -/
def changeWritten (f : PartFrame) (s : State) : State :=
  { s with
    trunkPort := { s.trunkPort with
      partQueue := s.trunkPort.partQueue ++ [f], waiters := s.trunkPort.waiters.erase .walker }
    walker := { s.walker with waiting := none, abandoned := false } }

theorem writeChange_eq (f : PartFrame) (s : State) : writeChange f s =
    if s.walker.item.isSome then changeWritten f s
    else if s.walker.abandoned && s.walker.workList.isEmpty then changeWritten f s
    else nextItem (changeWritten f s) := by
  unfold writeChange
  rw [writeFrame_endWait]
  rfl

/-- Settles O12: the intake writes its QUEUE_FULL and judges the held request; the Walker writes its PASS_CHANGE and goes on
with its item, its list, or neither. -/
theorem intakeAndWalkerResume : Obligations.IntakeAndWalkerResume := by
  unfold Obligations.IntakeAndWalkerResume
  refine ⟨fun p f s high full turn => ?_, fun f s high waits turn => ?_⟩
  · have taken : exec (.queueFullWrite p) s = .next (writeFull p f s) := by
      show execQueueFullWrite p s = _
      rw [execQueueFullWrite, event_taken _ high]
      simp only [full, turn, if_true]
    rw [taken, writeFull_eq]
    refine ⟨fun free => by rw [free]; rfl, fun q held => ?_⟩
    simp only [held, ← queuePlaces_eq]
    have queue := queueOfPort_intakeFreed p q.port f s
    refine ⟨fun room => ?_, fun noPlace => ⟨fun room => ?_, fun noRoom => ?_⟩⟩
    · rw [joinQueue_room (by rw [queue]; exact room), queue]
      rfl
    · rw [joinQueue_full (by rw [queue]; exact noPlace), answerFull_room (s := intakeFreed p f s) rfl (by exact room)]
      rfl
    · rw [joinQueue_full (by rw [queue]; exact noPlace), answerFull_wait (s := intakeFreed p f s) rfl (by exact noRoom)]
      rfl
  · have taken : exec .passChangeWrite s = .next (writeChange f s) := by
      show execPassChangeWrite s = _
      rw [execPassChangeWrite, event_taken _ high]
      simp only [waits, turn, if_true]
    rw [taken, writeChange_eq]
    refine ⟨fun item => by rw [if_pos item]; rfl, fun none i is list => ?_, fun none list => ?_⟩
    · simp only [none, Option.isSome_none, Bool.false_eq_true, if_false, list, List.isEmpty_cons, Bool.and_false]
      simp [nextItem, changeWritten, list, takeItem]
    · simp only [none, Option.isSome_none, Bool.false_eq_true, if_false, list, List.isEmpty_nil, Bool.and_true]
      cases gone : s.walker.abandoned with
      | true =>
        simp only [if_true, changeWritten, none, list]
      | false =>
        simp only [Bool.false_eq_true, if_false, nextItem, changeWritten, none, list, flagged_one]

end Sys2Proof.Machine
end

section
/-! PROOFS. The clock: its advance (O13), the boundaries of a second (O14), the phase boundaries and the midnight wrap (O15),
and a window's early-redemption time and end (O16). -/

namespace Sys2Proof.Machine

/-! ## The day closed (R14, R15) -/

/-- What is written, and what is left to write, depends on the two ports alone. -/
theorem writeAll_of_ports (w : Producer) (fs : List (Port × PartFrame)) {s t : State}
    (field : t.fieldPort = s.fieldPort) (trunk : t.trunkPort = s.trunkPort) :
    (writeAll w fs t).2 = (writeAll w fs s).2 ∧ (writeAll w fs t).1.fieldPort = (writeAll w fs s).1.fieldPort ∧
      (writeAll w fs t).1.trunkPort = (writeAll w fs s).1.trunkPort := by
  induction fs generalizing s t with
  | nil => exact ⟨rfl, field, trunk⟩
  | cons x rest ih =>
    obtain ⟨p, f⟩ := x
    have ports : portOf t p = portOf s p := by
      cases p
      · exact field
      · exact trunk
    simp only [writeAll, ports]
    split
    · refine ih ?_ ?_ <;> cases p <;> simp [writeFrame, setPort, portOf, field, trunk]
    · refine ⟨rfl, ?_, ?_⟩ <;> cases p <;> simp [beginWait, setPort, portOf, field, trunk]

theorem send_of_ports (w : Producer) (box new : List (Port × PartFrame)) {s t : State}
    (field : t.fieldPort = s.fieldPort) (trunk : t.trunkPort = s.trunkPort) :
    (send w box new t).2 = (send w box new s).2 ∧ (send w box new t).1.fieldPort = (send w box new s).1.fieldPort ∧
      (send w box new t).1.trunkPort = (send w box new s).1.trunkPort := by
  cases box with
  | nil => exact writeAll_of_ports w new field trunk
  | cons x xs => exact ⟨rfl, field, trunk⟩

theorem engineSend_eq (fs : List (Port × PartFrame)) (s : State) : engineSend fs s =
    { s with
      fieldPort := (send .passEngine s.engine.outbox fs s).1.fieldPort
      trunkPort := (send .passEngine s.engine.outbox fs s).1.trunkPort
      engine := { s.engine with outbox := (send .passEngine s.engine.outbox fs s).2 } } := by
  obtain ⟨a, b, kept⟩ := send_frame .passEngine s.engine.outbox fs s
  rw [engineSend, kept]

/-- R15: the state of a close before its PHASE_CLOSED replies are written. -/
def closedSilently (s : State) : State :=
  { s with
    day := { s.day with phase := .night }
    calendar := { s.calendar with windows := filled 48 [], flex := filled 48 [] }
    guests := []
    walker := abandonWalk s.walker
    tallies := restingTallies 0 s.rideTable
    rides := restingRides s.rideTable
    engine := { s.engine with kiosk := [], remote := [], heldList := [], lastQueue := none, run := 0 }
    out := { s.out with
      flags := s.out.flags ++ [.phaseChanged]
      posted := s.out.posted ++ postedChanges s.tallies (restingTallies 0 s.rideTable) } }

theorem closeDay_eq {s : State} (day : inDay s.day.phase = true) :
    closeDay s = engineSend (closeReplies s) (closedSilently s) := by
  have notNight : s.day.phase ≠ .night := fun night => by rw [night] at day; cases day
  rw [closeDay, setPhase, if_neg notNight]
  rfl

/-- R14, R15: a close of a day empties the day, keeps the rest, hands the changes over and answers the requests. -/
theorem closeDay_dayClosed {s : State} (day : inDay s.day.phase = true) : dayClosed s (closeDay s) := by
  obtain ⟨box, field, trunk⟩ :=
    send_of_ports .passEngine s.engine.outbox (closeReplies s) (s := s) (t := closedSilently s) rfl rfl
  rw [closeDay_eq day, engineSend_eq]
  refine ⟨⟨rfl, fun r => ⟨look_filled .., look_filled ..⟩, rfl, rfl, rfl, fun r => look_filled .., fun r => ?_, fun r => ?_,
    rfl, rfl, rfl, rfl, rfl⟩, ?_, rfl, box, field, trunk⟩
  · exact look_tabulate ..
  · exact look_tabulate ..
  · exact ⟨rfl, rfl, rfl, rfl, rfl, rfl, rfl, rfl, rfl, rfl, rfl, rfl, rfl, rfl, rfl, rfl, rfl, rfl, rfl, rfl⟩

/-! ## A second reached (R2, R6) -/

/-- R6: a second reached with no day to close. -/
theorem reachSecond_stays {m : Nat} {s : State} (stays : m ≠ 0 ∨ inDay s.day.phase = false) : reachSecond m s =
    { counted m s with day := { (counted m s).day with due := (reachSecond m s).day.due } } := by
  rw [reachSecond_plain stays]

/-- R6: 00:00:00 reached in the day. -/
theorem reachSecond_closes {m : Nat} {s : State} (midnight : m = 0) (day : inDay s.day.phase = true) :
    ∃ v, dayClosed (counted m s) v ∧ reachSecond m s = { v with day := { v.day with due := (reachSecond m s).day.due } } := by
  subst midnight
  exact ⟨_, closeDay_dayClosed (s := counted 0 s) day, by rw [reachSecond_wraps day]⟩

theorem exec_clockAdvance_of_clock {s : State} {n : Nat} (high : s.resetLow = false) (clock : s.day.clock = some n)
    (settled : s.day.due = []) : exec .clockAdvance s = .next (reachSecond ((n + 1) % 86400) s) := by
  show execClockAdvance s = _
  rw [execClockAdvance, event_taken _ high, if_pos (by rw [clock]; rfl), advanceClock, settle_nil [] settled, tick, clock]
  rfl

theorem look_rides_counted (m : Nat) (s : State) (r : Ride) : look (counted m s).rides r =
    { look s.rides r with timer := timerSecond (look s.rides r).timer } := look_tmap ..

theorem look_boards_counted (m : Nat) (s : State) (b : BoardIx) :
    look (counted m s).boards b = countSecond (look s.boards b) := look_tmap ..

/-- Settles O13: the second is reached with the timers counted, and at midnight a day is closed. -/
theorem exec_clockAdvance : Obligations.ClockAdvance := by
  unfold Obligations.ClockAdvance
  refine fun s high => ⟨fun unset => ?_, fun n clock settled => ⟨reachSecond ((n + 1) % 86400) s,
    counted ((n + 1) % 86400) s, exec_clockAdvance_of_clock high clock settled, reachSecond_stays, reachSecond_closes, rfl,
    look_rides_counted _ s, look_boards_counted _ s⟩⟩
  show execClockAdvance s = _
  rw [execClockAdvance, event_taken _ high, unset]
  rfl

/-! ## The boundaries of a second (R2, R37) -/

theorem mem_boundaryIf {b : Bool} {x y : Boundary} : y ∈ boundaryIf b x ↔ b = true ∧ y = x := by
  cases b <;> simp [boundaryIf]

/-- The owner's rule for a boundary at the second `t`. -/
def fallsOn (t : Nat) (s : State) : Boundary → Prop
  | .openMinute => t = 60 * s.day.park.openMinute
  | .lastCall => t = 60 * s.day.park.lastCallMinute
  | .earlyRedemption r k => ∃ w, windowOf s r k = some w ∧
      (rideProfile s r).early ≤ w.start ∧ t = 60 * (w.start - (rideProfile s r).early)
  | .windowEnd r k => ∃ w, windowOf s r k = some w ∧ t = 60 * w.stop
  | .closing r k => ∃ w, windowOf s r k = some w ∧ t = 60 * (w.stop + (rideProfile s r).late)
  | .historyRotation => t % 60 = 0
  | .postingTick => t % 60 = 0 ∨ t % 60 = 30
  | .gapExpiry r => (look s.rides r).timer.running = true ∧ (look s.rides r).timer.limit ≤ (look s.rides r).timer.elapsed
  | .holdExpiry => ∃ e ∈ s.engine.heldList, e.expiring = true
  | .spacingEnd b => (look s.boards b).pending = true ∧ (look s.boards b).spacing = some 2
  | .refresh b => (look s.boardTable b).address ≠ 0 ∧ (look s.boardTable b).refreshPeriod ≤ (look s.boards b).refresh

/-- Where the parts of the list of a second's boundaries come from. -/
theorem mem_boundariesAt_parts {t : Nat} {s : State} {x : Boundary} : x ∈ boundariesAt t s ↔
    (t = 60 * s.day.park.openMinute ∧ x = .openMinute) ∨ (t = 60 * s.day.park.lastCallMinute ∧ x = .lastCall) ∨
    (t % 60 = 0 ∧ ∃ r, x ∈ rideBoundaries s t r) ∨ (t % 60 = 0 ∧ x = .historyRotation) ∨
    (t % 30 = 0 ∧ x = .postingTick) ∨ (∃ r, timerExpired (look s.rides r).timer = true ∧ x = .gapExpiry r) ∨
    ((∃ e ∈ s.engine.heldList, e.expiring = true) ∧ x = .holdExpiry) ∨ ∃ b, x ∈ boardBoundaries s b := by
  have rides : x ∈ (if t % 60 = 0 then (indices 48).flatMap (rideBoundaries s t) else []) ↔
      t % 60 = 0 ∧ ∃ r, x ∈ rideBoundaries s t r := by
    split
    · next h => simp [h, indices]
    · next h => simp [h]
  simp only [boundariesAt, List.mem_append, rides]
  simp only [mem_boundaryIf, List.mem_flatMap, indices, List.mem_finRange, true_and,
    beq_iff_eq, List.any_eq_true, or_assoc]

theorem mem_rideBoundaries {t : Nat} {s : State} {r : Ride} {x : Boundary} : x ∈ rideBoundaries s t r ↔
    ∃ w k, windowOf s r k = some w ∧
      (((rideProfile s r).early ≤ w.start ∧ t = 60 * (w.start - (rideProfile s r).early) ∧ x = .earlyRedemption r k) ∨
        (t = 60 * w.stop ∧ x = .windowEnd r k) ∨ (t = 60 * (w.stop + (rideProfile s r).late) ∧ x = .closing r k)) := by
  simp [rideBoundaries, windowBoundaries, List.mem_flatMap, List.mem_zipIdx_iff_getElem?, mem_boundaryIf, windowOf,
    and_assoc]

theorem mem_boardBoundaries {s : State} {b : BoardIx} {x : Boundary} : x ∈ boardBoundaries s b ↔
    ((look s.boards b).pending = true ∧ (look s.boards b).spacing = some 2 ∧ x = .spacingEnd b) ∨
      ((look s.boardTable b).address ≠ 0 ∧ (look s.boardTable b).refreshPeriod ≤ (look s.boards b).refresh ∧
        x = .refresh b) := by
  simp only [boardBoundaries, List.mem_append, mem_boundaryIf, Bool.and_eq_true, decide_eq_true_eq, boardUsed, bne_iff_ne,
    beq_iff_eq, Config.boardSpacing, and_assoc]
  rfl

/-- R2: a boundary is noted exactly when its owner's rule names the second. -/
theorem mem_boundariesAt {t : Nat} {s : State} {x : Boundary} : x ∈ boundariesAt t s ↔ fallsOn t s x := by
  rw [mem_boundariesAt_parts]
  simp only [mem_rideBoundaries, mem_boardBoundaries]
  cases x with
  | openMinute => simp [fallsOn]
  | lastCall => simp [fallsOn]
  | historyRotation => simp [fallsOn]
  | postingTick =>
    simp only [fallsOn, reduceCtorEq, and_false, exists_false, or_false, false_or, and_true]
    omega
  | gapExpiry r => simp [fallsOn, timerExpired]
  | holdExpiry => simp [fallsOn]
  | spacingEnd b => simp [fallsOn]
  | refresh b => simp [fallsOn]
  | earlyRedemption r k =>
    simp only [fallsOn, reduceCtorEq, and_false, exists_false, or_false, false_or, Boundary.earlyRedemption.injEq]
    constructor
    · rintro ⟨-, _, w, _, window, early, time, rfl, rfl⟩
      exact ⟨w, window, early, time⟩
    · rintro ⟨w, window, early, time⟩
      exact ⟨by omega, r, w, k, window, early, time, rfl, rfl⟩
  | windowEnd r k =>
    simp only [fallsOn, reduceCtorEq, and_false, exists_false, or_false, false_or, Boundary.windowEnd.injEq]
    constructor
    · rintro ⟨-, _, w, _, window, time, rfl, rfl⟩
      exact ⟨w, window, time⟩
    · rintro ⟨w, window, time⟩
      exact ⟨by omega, r, w, k, window, time, rfl, rfl⟩
  | closing r k =>
    simp only [fallsOn, reduceCtorEq, and_false, exists_false, or_false, false_or, Boundary.closing.injEq]
    constructor
    · rintro ⟨-, _, w, _, window, time, rfl, rfl⟩
      exact ⟨w, window, time⟩
    · rintro ⟨w, window, time⟩
      exact ⟨by omega, r, w, k, window, time, rfl, rfl⟩

/-- The boundaries of a second do not depend on those noted before. -/
theorem due_reachSecond (m : Nat) (s : State) : (reachSecond m s).day.due = boundariesAt m (reachSecond m s) := rfl

/-- R177: neither a second nor a close does anything to the boards but the counting. -/
theorem look_boards_reachSecond (m : Nat) (s : State) (b : BoardIx) :
    look (reachSecond m s).boards b = countSecond (look s.boards b) := by
  rw [← look_boards_counted m]
  by_cases closes : m = 0 ∧ inDay s.day.phase = true
  · obtain ⟨v, ⟨-, ⟨-, -, -, -, -, -, -, -, -, boards, -⟩, -⟩, eq⟩ := reachSecond_closes closes.1 closes.2
    rw [eq, ← boards]
  · rw [reachSecond_stays (by simpa only [not_and_or, Bool.not_eq_true] using closes)]

theorem spacing_countSecond {x : Board} : (countSecond x).spacing = some 2 ↔ x.spacing = some 1 := by
  cases h : x.spacing with
  | none => simp [countSecond, h]
  | some c =>
    simp only [countSecond, h, Option.map_some, Option.some.injEq, Config.boardCountMax]
    omega

/-- Settles O14: the list of the second holds what each owner's rule names, and the tables are those from before. -/
theorem boundariesOfASecond : Obligations.BoundariesOfASecond := by
  unfold Obligations.BoundariesOfASecond
  intro s t n high set settled answer now
  obtain ⟨m, clock⟩ := Option.isSome_iff_exists.1 set
  rw [exec_clockAdvance_of_clock high clock settled] at answer
  obtain rfl := Host.Outcome.next.inj answer
  obtain ⟨keeps, second⟩ := reachSecond_keeps ((m + 1) % 86400) s
  rw [second] at now
  obtain rfl := Option.some.inj now
  have profile (r : Ride) : rideProfile s r = rideProfile (reachSecond ((m + 1) % 86400) s) r := by
    rw [rideProfile, rideProfile, rideEntry, rideEntry, keeps.rideTable, keeps.profiles]
  simp only [profile, ← keeps.park, ← keeps.boardTable, due_reachSecond, mem_boundariesAt]
  refine ⟨Iff.rfl, Iff.rfl, fun r k => Iff.rfl, fun r k => Iff.rfl, fun r k => Iff.rfl, Iff.rfl, Iff.rfl, fun r => Iff.rfl,
    Iff.rfl, fun b => ?_, fun b => ?_⟩
  · rw [fallsOn, look_boards_reachSecond, spacing_countSecond]
    rfl
  · rw [fallsOn, look_boards_reachSecond]
    rfl

/-! ## The phase boundaries (R13) -/

section PhaseBoundaries

variable {s : State}

theorem openMinuteReached_preopen (preopen : s.day.phase = .preopen)
    (time : s.day.clock = some (60 * s.day.park.openMinute)) :
    openMinuteReached s = flagged { s with day := { s.day with phase := .opened } } [.phaseChanged] := by
  rw [openMinuteReached, if_pos ⟨preopen, clockAt_iff.2 time⟩, setPhase, if_neg (by rw [preopen]; decide)]
  rfl

theorem openMinuteReached_other (other : s.day.phase ≠ .preopen) : openMinuteReached s = s := by
  rw [openMinuteReached, if_neg fun both => other both.1]

theorem lastCallReached_open (opened : s.day.phase = .preopen ∨ s.day.phase = .opened)
    (time : s.day.clock = some (60 * s.day.park.lastCallMinute)) :
    lastCallReached s = flagged { s with
      day := { s.day with phase := .lastCall }
      out := { s.out with lastCalls := s.out.lastCalls + 1 } } [.phaseChanged] := by
  have notYet : s.day.phase ≠ .lastCall := fun last => by rcases opened with h | h <;> rw [last] at h <;> cases h
  rw [lastCallReached, if_pos ⟨opened, clockAt_iff.2 time⟩, setPhase, if_neg notYet]
  rfl

theorem lastCallReached_other (notPreopen : s.day.phase ≠ .preopen) (notOpen : s.day.phase ≠ .opened) :
    lastCallReached s = s := by
  rw [lastCallReached, if_neg fun both => both.1.elim notPreopen notOpen]

end PhaseBoundaries

/-- Settles O15: each boundary judges the phase; the wrap is the advance from 23:59:59. -/
theorem phaseBoundaries : Obligations.PhaseBoundaries := by
  unfold Obligations.PhaseBoundaries
  refine ⟨fun s => ⟨fun due time => ?_, fun due time => ?_⟩, fun s high => ⟨fun other => ?_, fun last => ⟨?_, fun settled => ?_⟩⟩⟩
  · have taken : exec .openMinuteBoundary s = .next (openMinuteReached (withoutDue s .openMinute)) :=
      event_takeDue_of_boundaryDue due
    rw [taken]
    exact ⟨fun preopen => congrArg _ (openMinuteReached_preopen (s := withoutDue s .openMinute) preopen time),
      fun other => congrArg _ (openMinuteReached_other (s := withoutDue s .openMinute) other)⟩
  · have taken : exec .lastCallBoundary s = .next (lastCallReached (withoutDue s .lastCall)) :=
      event_takeDue_of_boundaryDue due
    rw [taken]
    exact ⟨fun opened => congrArg _ (lastCallReached_open (s := withoutDue s .lastCall) opened time),
      fun notPreopen notOpen => congrArg _ (lastCallReached_other (s := withoutDue s .lastCall) notPreopen notOpen)⟩
  · show execMidnightWrap s = _
    rw [execMidnightWrap, event_taken _ high]
    exact congrArg _ (if_neg other)
  · show execMidnightWrap s = execClockAdvance s
    rw [execMidnightWrap, execClockAdvance, event_taken _ high, event_taken _ high, last]
    rfl
  · have wraps : exec .midnightWrap s = .next (reachSecond 0 s) := by
      rw [← exec_clockAdvance_of_clock (n := 86399) high last settled]
      show execMidnightWrap s = execClockAdvance s
      rw [execMidnightWrap, execClockAdvance, event_taken _ high, event_taken _ high, last]
      rfl
    refine ⟨reachSecond 0 s, counted 0 s, wraps, rfl, ?_, fun night => reachSecond_stays (.inr night),
      fun day => reachSecond_closes rfl day⟩
    show (s.engine.heldList.map (holdSecond s.day.park.holdLimit)).map HeldEntry.request = _
    rw [List.map_map]
    refine List.map_congr_left fun e _ => ?_
    show (holdSecond s.day.park.holdLimit e).request = e.request
    rw [holdSecond]
    split <;> rfl

/-! ## A window opens and ends (R42, R45) -/

section WindowTimes

variable {r : Ride} {k : Nat} {w : Window} {s : State}

theorem earlyRedemption_of_not_future (window : windowOf s r k = some w) (moved : w.state ≠ .future) :
    earlyRedemption r k s = s := by
  simp [earlyRedemption, window, moved]

variable (window : windowOf s r k = some w) (future : w.state = .future) (early : (rideProfile s r).early ≤ w.start)
  (reached : s.day.clock = some (60 * (w.start - (rideProfile s r).early)))
include window future early reached

theorem earlyRedemption_running (running : rideState s r = .up ∨ rideState s r = .suspect) :
    earlyRedemption r k s = putWindow r k { w with state := .redeemable } s := by
  rcases running with up | suspect
  · simp [earlyRedemption, window, future, early, clockAt_iff.2 reached, up]
  · simp [earlyRedemption, window, future, early, clockAt_iff.2 reached, suspect]

theorem earlyRedemption_stopped (stopped : rideState s r = .down ∨ rideState s r = .closed) :
    earlyRedemption r k s = handItems (itemFor r k .displace w) (putWindow r k { w with state := .lost } s) := by
  rcases stopped with down | closed
  · simp [earlyRedemption, window, future, early, clockAt_iff.2 reached, down]
  · simp [earlyRedemption, window, future, early, clockAt_iff.2 reached, closed]

end WindowTimes

theorem windowEnd_of_ended {r : Ride} {k : Nat} {w : Window} {s : State} (window : windowOf s r k = some w)
    (ended : w.ended = true) : windowEnd r k s = s := by
  simp [windowEnd, window, ended]

theorem windowEnd_of_running {r : Ride} {k : Nat} {w : Window} {s : State} (window : windowOf s r k = some w)
    (runs : w.ended = false) (reached : s.day.clock = some (60 * w.stop)) : windowEnd r k s =
      { putWindow r k { w with ended := true } s with
        out := { s.out with evaluations := s.out.evaluations ++ [⟨r, k, w.stop⟩] } } := by
  simp only [windowEnd, window, runs, clockAt_iff.2 reached, and_self, if_true]
  rfl

/-- Settles O16: the due boundary is run on the state without it, and the window and its ride's state decide. -/
theorem windowOpensAndEnds : Obligations.WindowOpensAndEnds := by
  unfold Obligations.WindowOpensAndEnds
  refine ⟨fun r k w s due window early reached => ?_, fun r k w s due window reached => ?_⟩
  · intro s1 lost
    have taken : exec (.earlyRedemptionTime r k) s = .next (earlyRedemption r k s1) := event_takeDue_of_boundaryDue due
    rw [taken]
    refine ⟨fun moved => ?_, fun future running => ?_, fun future stopped => ?_⟩
    · exact congrArg _ (earlyRedemption_of_not_future (s := s1) window moved)
    · exact congrArg _ (earlyRedemption_running (s := s1) window future early reached running)
    · have loses : earlyRedemption r k s1 = handItems (itemFor r k .displace w) lost :=
        earlyRedemption_stopped (s := s1) window future early reached stopped
      rw [loses]
      exact ⟨fun empty => congrArg _ (handItems_itemFor_of_empty r k .displace lost empty),
        fun held => congrArg _ (handItems_itemFor_of_held r k .displace lost held)⟩
  · intro s1 ended
    have taken : exec (.windowEnd r k) s = .next (windowEnd r k s1) := event_takeDue_of_boundaryDue due
    rw [taken]
    exact ⟨fun done => congrArg _ (windowEnd_of_ended (s := s1) window done),
      fun runs => congrArg _ (windowEnd_of_running (s := s1) window runs reached)⟩

end Sys2Proof.Machine
end

section
/-! PROOFS. The Standby Tally Unit's posting tick (O18) and the posted minutes (O19), the expiries of the interval timers (O20),
and the Board Composer's frames at their times (O21). -/

namespace Sys2Proof.Machine

/-! ## The posting tick (R141) -/

theorem postedForUp_of_some {c : PostingCurve} {e p : Nat} (minutes : curveMinutes c e = some p) :
    postedForUp c e = if p ≤ 240 then .wait p else .over := by
  rw [postedForUp, minutes]

theorem postedForUp_of_none {c : PostingCurve} {e : Nat} (none : curveMinutes c e = none) : postedForUp c e = .over := by
  rw [postedForUp, none]

theorem clockNow_of_clock {s : State} {n : Nat} (clock : s.day.clock = some n) : clockNow s = n := by
  rw [clockNow, clock, Option.getD_some]

theorem minuteNow_of_clock {s : State} {n : Nat} (clock : s.day.clock = some n) : minuteNow s = n / 60 := by
  rw [minuteNow, clockNow_of_clock clock]

/-- R139: the tally of a ride at a tick, its rate history rotated at a new minute. -/
def tallyAtTick (n : Nat) (y : Tally) : Tally :=
  if n % 60 = 0 ∧ y.newestMinute < n / 60 then { y with buckets := 0 :: y.buckets.dropLast, newestMinute := n / 60 } else y

/-- R142: the estimate of a ride at a tick. -/
def estimateAtTick (s : State) (n : Nat) (r : Ride) : Nat :=
  if (look s.rideTable r).enabled then
    estimateOf n (look s.rideTable r).inEffect (look s.monitors r).throttle (tallyAtTick n (look s.tallies r))
  else (look s.tallies r).estimate

section Tick

variable {s : State} {n : Nat} (clock : s.day.clock = some n) (r : Ride)
include clock

theorem tickTally_rotated : (if clockNow s % 60 = 0 then rotateRate (minuteNow s) (look s.tallies r) else look s.tallies r) =
    tallyAtTick n (look s.tallies r) := by
  rw [clockNow_of_clock clock, minuteNow_of_clock clock, tallyAtTick, rotateRate]
  by_cases minute : n % 60 = 0 <;> simp [minute]

theorem tickTally_night (night : inDay s.day.phase = false) : tickTally s r =
    { tallyAtTick n (look s.tallies r) with posted := if (look s.rideTable r).enabled then .closed else .off } := by
  rw [tickTally, tickTally_rotated clock r]
  simp only [night, Bool.false_eq_true, if_false]
  rfl

theorem tickTally_day (day : inDay s.day.phase = true) : tickTally s r =
    { tallyAtTick n (look s.tallies r) with
      estimate := estimateAtTick s n r
      posted := postedFor (look s.rides r).state (look s.rideTable r).postingCurve (estimateAtTick s n r) } := by
  have kept : (tallyAtTick n (look s.tallies r)).estimate = (look s.tallies r).estimate := by
    unfold tallyAtTick
    split <;> rfl
  rw [tickTally, tickTally_rotated clock r]
  simp only [day, if_true, currentEstimate, clockNow_of_clock clock, kept]
  rfl

end Tick

/-- Settles O18: every tally ticks, and the changes of posted value are handed over. (`postingTick` itself is the model's
function.) -/
theorem exec_postingTick : Obligations.PostingTick := by
  unfold Obligations.PostingTick
  intro s n due clock
  have taken : exec .postingTick s = .next (postingTick (withoutDue s .postingTick)) := event_takeDue_of_boundaryDue due
  refine ⟨_, taken, rfl, fun r => ?_⟩
  have ticks : look (postingTick (withoutDue s .postingTick)).tallies r = tickTally (withoutDue s .postingTick) r :=
    look_tabulate ..
  simp only [ticks]
  have inTheDay (day : inDay s.day.phase = true) := tickTally_day (s := withoutDue s .postingTick) clock r day
  refine ⟨tickTally_night (s := withoutDue s .postingTick) clock r, fun day up => ?_, fun day state => ?_,
    fun day state => ?_, fun day state => ?_, fun day state => ?_⟩
  · rw [inTheDay day]
    refine congrArg (fun p => ({ tallyAtTick n (look s.tallies r) with
      estimate := estimateAtTick s n r, posted := p } : Tally)) ?_
    show postedFor (look s.rides r).state _ (estimateAtTick s n r) = _
    rw [up]
    show postedForUp _ _ = _
    split
    · next p found => exact postedForUp_of_some (e := estimateAtTick s n r) found
    · next none => exact postedForUp_of_none (e := estimateAtTick s n r) none
  all_goals
    rw [inTheDay day]
    refine congrArg (fun p => ({ tallyAtTick n (look s.tallies r) with
      estimate := estimateAtTick s n r, posted := p } : Tally)) ?_
    show postedFor (look s.rides r).state _ (estimateAtTick s n r) = _
    rw [state]
    rfl

/-! ## The estimate (R142) -/

/-- Ceiling division is the least number that covers. -/
theorem ceilDiv_spec {a b : Nat} (positive : 0 < b) : a ≤ ceilDiv a b * b ∧ ceilDiv a b * b < a + b := by
  have split := Nat.div_add_mod (a + b - 1) b
  have below := Nat.mod_lt (a + b - 1) positive
  rw [Nat.mul_comm] at split
  constructor <;> unfold ceilDiv <;> omega

/-- R142: the predicted wait of a tally. -/
def predictedWait (c : CapacityFields) (throttle : Nat) (y : Tally) : Nat :=
  let q := queueOf y.marks
  let rate := rateOf y.buckets
  let fallback := c.hourlyCapacity * (100 - effectiveShare c.passShare throttle) / 100
  if q = 0 then 0
  else if 0 < rate then ceilDiv (q * 60) rate
  else if 0 < fallback then ceilDiv (q * 60) fallback
  else 999

section Estimate

variable (now : Nat) (c : CapacityFields) (throttle : Nat) {y : Tally}

theorem estimateOf_observed {o : ObservedWait} (observed : y.lastObserved = some o) (fresh : now - o.observedAt < 900) :
    estimateOf now c throttle y = min 999 (max (predictedWait c throttle y) o.minutes) := by
  simp only [estimateOf, observed, isFresh, fresh, decide_true, if_true]
  rfl

theorem estimateOf_unobserved (none : ∀ o, y.lastObserved = some o → 900 ≤ now - o.observedAt) :
    estimateOf now c throttle y = min 999 (predictedWait c throttle y) := by
  cases seen : y.lastObserved with
  | none =>
    simp only [estimateOf, seen]
    rfl
  | some o =>
    simp only [estimateOf, seen, isFresh, Nat.not_lt.2 (none o seen), decide_false, Bool.false_eq_true, if_false]
    rfl

end Estimate

/-! ## The posting curves (R143) -/

theorem toFives_spec (n : Nat) : 5 ∣ toFives n ∧ n ≤ toFives n ∧ toFives n < n + 5 :=
  ⟨⟨ceilDiv n 5, Nat.mul_comm ..⟩, ceilDiv_spec (by decide)⟩

/-- In a rising list the first member that is large enough is the least one. -/
theorem find?_le_eq_some {l : List Nat} (rising : l.Pairwise (· < ·)) {e p : Nat} :
    (l.find? fun b => decide (e ≤ b)) = some p ↔ p ∈ l ∧ e ≤ p ∧ ∀ b ∈ l, e ≤ b → p ≤ b := by
  induction l with
  | nil => simp
  | cons x xs ih =>
    obtain ⟨above, rising⟩ := List.pairwise_cons.1 rising
    by_cases reached : e ≤ x
    · rw [List.find?_cons_of_pos (by simpa using reached), Option.some.injEq]
      constructor
      · rintro rfl
        exact ⟨List.mem_cons_self, reached, by
          simpa using fun b hb _ => (above b hb).le⟩
      · rintro ⟨member, -, least⟩
        have atMost := least x List.mem_cons_self reached
        rcases List.mem_cons.1 member with rfl | later
        · rfl
        · exact absurd (above p later) (Nat.not_lt.2 atMost)
    · rw [List.find?_cons_of_neg (by simpa using reached), ih rising]
      constructor
      · rintro ⟨member, enough, least⟩
        refine ⟨List.mem_cons_of_mem _ member, enough, fun b hb more => ?_⟩
        rcases List.mem_cons.1 hb with rfl | later
        · exact absurd more reached
        · exact least b later more
      · rintro ⟨member, enough, least⟩
        refine ⟨?_, enough, fun b hb => least b (List.mem_cons_of_mem _ hb)⟩
        rcases List.mem_cons.1 member with rfl | later
        · exact absurd enough reached
        · exact later

theorem bandMinutes_rising : bandMinutes.Pairwise (· < ·) := by decide

theorem bandMinutes_none {e : Nat} : curveMinutes .bands e = none ↔ 240 < e := by
  simp only [curveMinutes, bandMinutes, List.find?_eq_none, List.forall_mem_cons, List.not_mem_nil, IsEmpty.forall_iff,
    implies_true, and_true, decide_eq_true_eq]
  omega

/-- Settles O19: the predicted wait is a ceiling, and each curve rounds up to its own steps. (`postedMinutes` itself is the
model's function.) -/
theorem postedMinutes_of_estimate : Obligations.PostedMinutes := by
  unfold Obligations.PostedMinutes
  refine ⟨fun now c throttle y => ?_, fun e => rfl, fun e => ⟨_, rfl, toFives_spec e⟩, fun e => ?_,
    fun e p => find?_le_eq_some bandMinutes_rising, fun e => bandMinutes_none, fun c e p minutes above => ?_,
    fun c e p minutes atMost => ?_, fun c e none => ?_, rfl, rfl, rfl, rfl⟩
  · refine ⟨predictedWait c throttle y, fun empty => if_pos empty, fun waiting rate => ?_, fun waiting rate fallback => ?_,
      fun waiting rate fallback => ?_, fun o => estimateOf_observed now c throttle, estimateOf_unobserved now c throttle⟩
    · have predicted : predictedWait c throttle y = ceilDiv (queueOf y.marks * 60) (rateOf y.buckets) :=
        (if_neg waiting.ne').trans (if_pos rate)
      rw [predicted]
      exact ceilDiv_spec rate
    · have predicted : predictedWait c throttle y = ceilDiv (queueOf y.marks * 60)
          (c.hourlyCapacity * (100 - effectiveShare c.passShare throttle) / 100) :=
        (if_neg waiting.ne').trans ((if_neg rate.not_gt).trans (if_pos fallback))
      rw [predicted]
      exact ceilDiv_spec fallback
    · exact (if_neg waiting.ne').trans ((if_neg rate.not_gt).trans (if_neg fallback.not_gt))
  · obtain ⟨enough, least⟩ := ceilDiv_spec (a := e * 110) (b := 100) (by decide)
    exact ⟨ceilDiv (e * 110) 100, _, rfl, enough, least, toFives_spec _⟩
  · rw [postedForUp_of_some minutes, if_neg (Nat.not_le.2 above)]
  · rw [postedForUp_of_some minutes, if_pos atMost]
  · exact postedForUp_of_none none

/-! ## The interval timers (R29, R89, R150) -/

@[simp] theorem upd_upd {n : Nat} {α : Type} (t : Table n α) (i : Fin n) (f g : α → α) :
    upd (upd t i f) i g = put t i (g (f (look t i))) := by
  rw [upd, look_upd_same, upd, put_put]

theorem enterState_suspect (r : Ride) (s : State) : enterState r .suspect s =
    { s with
      rides := put s.rides r
        { look s.rides r with state := .suspect, timer := { (look s.rides r).timer with running := false } }
      out := { s.out with
        flags := s.out.flags ++ [.rideSuspect]
        calendarStates := s.out.calendarStates ++ [(r, .suspect)]
        tallyStates := s.out.tallyStates ++ [(r, .suspect)]
        boardStates := s.out.boardStates ++ [r] } } := by
  have rides : (stopTimer { s with rides := upd s.rides r fun x => { x with state := .suspect } } r).rides =
      put s.rides r { look s.rides r with state := .suspect, timer := { (look s.rides r).timer with running := false } } := by
    simp only [stopTimer, upd_upd]
  simp only [enterState, ← rides]
  rfl

theorem gapExpiry_expired {r : Ride} {s : State} (running : (look s.rides r).timer.running = true)
    (reached : (look s.rides r).timer.limit ≤ (look s.rides r).timer.elapsed) :
    gapExpiry r s = enterState r .suspect s := by
  rw [gapExpiry, timerExpired, running, decide_eq_true reached]
  rfl

theorem gapExpiry_other {r : Ride} {s : State} (other : (look s.rides r).timer.running = false ∨
    (look s.rides r).timer.elapsed < (look s.rides r).timer.limit) : gapExpiry r s = s := by
  refine if_neg ?_
  rw [timerExpired, Bool.and_eq_true, decide_eq_true_eq]
  rintro ⟨running, reached⟩
  rcases other with stopped | early
  · rw [running] at stopped
    cases stopped
  · exact absurd reached (Nat.not_le.2 early)

/-- R89: the first entry whose expiry is due leaves the list. -/
theorem expireHeld_of_split {s : State} {before after : List HeldEntry} {e : HeldEntry}
    (list : s.engine.heldList = before ++ e :: after) (still : ∀ x ∈ before, x.expiring = false)
    (expiring : e.expiring = true) : expireHeld s =
      engineSend [replyFrame e.request .retry] { s with engine := { s.engine with heldList := before ++ after } } := by
  rw [expireHeld, takeFirst_eq_some.2 ⟨before, after, list, still, expiring, rfl⟩]

section EngineSend

variable {p : Port} {f : PartFrame} {s : State} (idle : s.engine.outbox = [])
include idle

theorem engineSend_room (room : (portOf s p).partQueue.length + (portOf s p).waiters.length < 128) :
    engineSend [(p, f)] s = setPort s p { portOf s p with partQueue := (portOf s p).partQueue ++ [f] } := by
  simp only [engineSend, idle, send, writeAll, hasRoom, Config.partPlaces, room, decide_true, if_true]
  rw [← idle]
  cases p <;> rfl

theorem engineSend_wait (full : 128 ≤ (portOf s p).partQueue.length + (portOf s p).waiters.length) :
    engineSend [(p, f)] s =
      { setPort s p { portOf s p with waiters := (portOf s p).waiters ++ [.passEngine] } with
        engine := { s.engine with outbox := [(p, f)] } } := by
  simp only [engineSend, idle, send, writeAll, hasRoom, Config.partPlaces, Nat.not_lt.2 full, decide_false,
    Bool.false_eq_true, if_false]
  cases p <;> rfl

end EngineSend

/-- Settles O20: each expiry by the rule of its owner. -/
theorem timersExpire : Obligations.TimersExpire := by
  unfold Obligations.TimersExpire
  refine ⟨⟨fun s n due clock => ?_, fun r s due => ?_⟩, fun s high => ⟨fun waits => ?_, fun idle still => ?_, ?_⟩⟩
  · have taken : exec .dispatchHistoryRotation s = .next (rotateHistories (withoutDue s .historyRotation)) :=
      event_takeDue_of_boundaryDue due
    refine ⟨_, taken, rfl, fun r => ?_⟩
    rw [rotateHistories, look_tmap, minuteNow_of_clock (s := withoutDue s .historyRotation) clock]
    rfl
  · have taken : exec (.gapTimerExpiry r) s = .next (gapExpiry r (withoutDue s (.gapExpiry r))) :=
      event_takeDue_of_boundaryDue due
    rw [taken]
    exact ⟨fun running reached => congrArg _
        ((gapExpiry_expired (s := withoutDue s (.gapExpiry r)) running reached).trans (enterState_suspect ..)),
      fun other => congrArg _ (gapExpiry_other (s := withoutDue s (.gapExpiry r)) other)⟩
  · have waiting : engineWaits s = true := by simpa [engineWaits] using waits
    show execHoldExpiry s = _
    rw [execHoldExpiry, event_taken _ high, if_pos waiting]
  · have free : engineWaits s = false := by simp [engineWaits, idle]
    show execHoldExpiry s = _
    rw [execHoldExpiry, event_taken _ high, free, expireHeld_idle still, ite_self]
  · intro before e after idle list still expiring q s1 reply
    have free : engineWaits s = false := by simp [engineWaits, idle]
    have taken : exec .holdExpiry s = .next (engineSend [(q.port, reply)] s1) := by
      show execHoldExpiry s = _
      rw [execHoldExpiry, event_taken _ high, free, expireHeld_of_split list still expiring]
      rfl
    have port : portOf s q.port = portOf s1 q.port := by cases q.port <;> rfl
    rw [taken, port]
    exact ⟨fun room => congrArg _ (engineSend_room idle room), fun full => congrArg _ (engineSend_wait idle full)⟩

/-! ## The Board Composer's frames (R177 to R181) -/

section WriteBoard

variable {b : BoardIx} {c : BoardContent} {s : State}

theorem writeBoard_room (room : s.fieldPort.partQueue.length < 96) : writeBoard b c s = { s with
    fieldPort := { s.fieldPort with partQueue := s.fieldPort.partQueue ++ [⟨(look s.boardTable b).address, .boardFrame c⟩] }
    boards := put s.boards b { look s.boards b with
      lastSent := some c, spacing := some 0, refresh := 0, pending := false, deferred := false } } := if_pos room

theorem writeBoard_full (full : 96 ≤ s.fieldPort.partQueue.length) : writeBoard b c s = { s with
    boards := put s.boards b { look s.boards b with refresh := 0, pending := false, deferred := true } } :=
  if_neg (Nat.not_lt.2 full)

theorem spacingAllows_iff {x : Board} : spacingAllows x = true ↔ x.spacing = none ∨ ∃ c, x.spacing = some c ∧ 2 ≤ c := by
  cases h : x.spacing with
  | none => simp [spacingAllows, h]
  | some c =>
    rw [spacingAllows, h, Option.all_some, decide_eq_true_iff]
    simp [Config.boardSpacing]

theorem spacingEnd_allowed (pending : (look s.boards b).pending = true)
    (allowed : (look s.boards b).spacing = none ∨ ∃ c, (look s.boards b).spacing = some c ∧ 2 ≤ c) :
    spacingEnd b s = writeBoard b (modeContent s b) s := by
  refine if_pos ?_
  rw [Bool.and_eq_true]
  exact ⟨pending, spacingAllows_iff.2 allowed⟩

theorem spacingEnd_early {n : Nat} (spacing : (look s.boards b).spacing = some n) (early : n < 2) : spacingEnd b s = s := by
  refine if_neg fun both => ?_
  rw [Bool.and_eq_true] at both
  rcases spacingAllows_iff.1 both.2 with none | ⟨m, found, enough⟩
  · exact absurd (spacing.symm.trans none) (by simp)
  · rw [boardOf, spacing] at found
    cases found
    omega

theorem spacingEnd_idle (idle : (look s.boards b).pending = false) : spacingEnd b s = s := by
  refine if_neg fun both => ?_
  rw [Bool.and_eq_true, boardOf, idle] at both
  cases both.1

theorem refreshBoard_used (used : (look s.boardTable b).address ≠ 0) (counted : (look s.boards b).refresh ≠ 0) :
    refreshBoard b s = writeBoard b (modeContent s b) s := by
  refine if_pos ?_
  rw [Bool.and_eq_true, boardUsed, bne_iff_ne, decide_eq_true_iff]
  exact ⟨used, counted⟩

theorem refreshBoard_idle (idle : (look s.boardTable b).address = 0 ∨ (look s.boards b).refresh = 0) :
    refreshBoard b s = s := by
  refine if_neg fun both => ?_
  rw [Bool.and_eq_true, boardUsed, bne_iff_ne, decide_eq_true_iff] at both
  exact idle.elim both.1 both.2

end WriteBoard

/-- Settles O21: at both times the board writes the content of its mode, or defers. -/
theorem boardFramesAtTheirTimes : Obligations.BoardFramesAtTheirTimes := by
  unfold Obligations.BoardFramesAtTheirTimes
  intro b s x e content sent deferred
  have carries (d : Boundary) : modeContent (withoutDue s d) b = content := rfl
  have writes (d : Boundary) : (s.fieldPort.partQueue.length < 96 →
      writeBoard b content (withoutDue s d) = sent (withoutDue s d)) ∧ (96 ≤ s.fieldPort.partQueue.length →
        writeBoard b content (withoutDue s d) = deferred (withoutDue s d)) :=
    ⟨fun room => writeBoard_room (s := withoutDue s d) room, fun full => writeBoard_full (s := withoutDue s d) full⟩
  refine ⟨fun due => ?_, fun due => ?_⟩
  · have taken : exec (.boardSpacingEnd b) s = .next (spacingEnd b (withoutDue s (.spacingEnd b))) :=
      event_takeDue_of_boundaryDue due
    obtain ⟨room, full⟩ := writes (.spacingEnd b)
    rw [taken]
    refine ⟨fun pending allowed => ?_, fun c pending spacing early => ?_, fun idle => ?_⟩
    · rw [spacingEnd_allowed (s := withoutDue s (.spacingEnd b)) pending allowed, carries]
      exact ⟨fun h => congrArg _ (room h), fun h => congrArg _ (full h)⟩
    · exact congrArg _ (spacingEnd_early (s := withoutDue s (.spacingEnd b)) spacing early)
    · exact congrArg _ (spacingEnd_idle (s := withoutDue s (.spacingEnd b)) idle)
  · have taken : exec (.boardRefresh b) s = .next (refreshBoard b (withoutDue s (.refresh b))) :=
      event_takeDue_of_boundaryDue due
    obtain ⟨room, full⟩ := writes (.refresh b)
    rw [taken]
    refine ⟨fun used counted => ?_, fun idle => ?_⟩
    · rw [refreshBoard_used (s := withoutDue s (.refresh b)) used counted, carries]
      exact ⟨fun h => congrArg _ (room h), fun h => congrArg _ (full h)⟩
    · exact congrArg _ (refreshBoard_idle (s := withoutDue s (.refresh b)) idle)

end Sys2Proof.Machine
end

section
/-! PROOFS. Chapters 6 and 12, the writing of messages: the Management Unit's replies and the Admission Unit's verdicts (O22). -/

namespace Sys2Proof.Machine

section Send

variable {w : Producer} {p : Port} {f : PartFrame} {s : State}

/-- R168: a frame joins the tail of its port's part output queue. -/
theorem writeAll_room (rest : List (Port × PartFrame))
    (room : (portOf s p).partQueue.length + (portOf s p).waiters.length < 128) :
    writeAll w ((p, f) :: rest) s = writeAll w rest (writeFrame p f s) :=
  if_pos (decide_eq_true room)

/-- R168: without room the producer waits with the frame and with those behind it. -/
theorem writeAll_wait (rest : List (Port × PartFrame))
    (full : ¬(portOf s p).partQueue.length + (portOf s p).waiters.length < 128) :
    writeAll w ((p, f) :: rest) s = (beginWait p w s, (p, f) :: rest) :=
  if_neg (by rw [hasRoom, decide_eq_true_iff]; exact full)

end Send

/-! ## The Management Unit's replies (R184) -/

theorem mgmtWrite_idle {s : State} (idle : s.management.outbox = []) (fs : List (Port × PartFrame)) : mgmtWrite fs s =
    { (writeAll .management fs s).1 with
      management := { (writeAll .management fs s).1.management with outbox := (writeAll .management fs s).2 } } := by
  simp only [mgmtWrite, idle, send]

section MgmtReply

variable {f : PartFrame} {s : State} (idle : s.management.outbox = [])
include idle

theorem mgmtWrite_room (room : s.trunkPort.partQueue.length + s.trunkPort.waiters.length < 128) :
    mgmtWrite [(.trunk, f)] s =
      { s with trunkPort := { s.trunkPort with partQueue := s.trunkPort.partQueue ++ [f] } } := by
  rw [mgmtWrite_idle idle, writeAll_room (p := .trunk) (s := s) [] room, writeAll, ← idle]
  rfl

theorem mgmtWrite_wait (full : 128 ≤ s.trunkPort.partQueue.length + s.trunkPort.waiters.length) :
    mgmtWrite [(.trunk, f)] s = { s with
      trunkPort := { s.trunkPort with waiters := s.trunkPort.waiters ++ [.management] }
      management := { s.management with outbox := [(.trunk, f)] } } := by
  rw [mgmtWrite_idle idle, writeAll_wait (p := .trunk) (s := s) [] (Nat.not_lt.2 full)]
  rfl

end MgmtReply

/-! ## The Admission Unit's verdicts (R104, R113) -/

/-- The frames of a verdict. -/
def verdictFrames (mode : ActedMode) (f : PartFrame) : List (Port × PartFrame) :=
  match mode with
  | .ownCopy => [(.field, f), (.trunk, f)]
  | .own => [(.field, f)]
  | .observe => []

theorem sendVerdict_idle {s : State} (idle : s.admission.outbox = []) (mode : ActedMode) (f : PartFrame) :
    sendVerdict mode f s = { (writeAll .admission (verdictFrames mode f) s).1 with
      admission := { outbox := (writeAll .admission (verdictFrames mode f) s).2 } } := by
  cases mode <;> simp only [sendVerdict, idle, send, verdictFrames]

section Verdict

variable {f : PartFrame} {s : State} (idle : s.admission.outbox = [])
include idle

theorem admission_idle : s.admission = { outbox := [] } := by
  rw [← idle]

theorem sendVerdict_own_room (room : s.fieldPort.partQueue.length + s.fieldPort.waiters.length < 128) :
    sendVerdict .own f s = { s with fieldPort := { s.fieldPort with partQueue := s.fieldPort.partQueue ++ [f] } } := by
  rw [sendVerdict_idle idle, verdictFrames, writeAll_room (p := .field) (s := s) [] room, writeAll, ← admission_idle idle]
  rfl

theorem sendVerdict_wait {mode : ActedMode} {rest : List (Port × PartFrame)}
    (frames : verdictFrames mode f = (.field, f) :: rest)
    (full : ¬s.fieldPort.partQueue.length + s.fieldPort.waiters.length < 128) : sendVerdict mode f s = { s with
      fieldPort := { s.fieldPort with waiters := s.fieldPort.waiters ++ [.admission] }
      admission := { outbox := verdictFrames mode f } } := by
  rw [sendVerdict_idle idle, frames, writeAll_wait (p := .field) (s := s) rest full]
  rfl

theorem sendVerdict_copy_room (room : s.fieldPort.partQueue.length + s.fieldPort.waiters.length < 128)
    (trunkRoom : s.trunkPort.partQueue.length + s.trunkPort.waiters.length < 128) : sendVerdict .ownCopy f s = { s with
      fieldPort := { s.fieldPort with partQueue := s.fieldPort.partQueue ++ [f] }
      trunkPort := { s.trunkPort with partQueue := s.trunkPort.partQueue ++ [f] } } := by
  rw [sendVerdict_idle idle, verdictFrames, writeAll_room (p := .field) (s := s) _ room,
    writeAll_room (p := .trunk) (s := writeFrame .field f s) [] (by exact trunkRoom), writeAll, ← admission_idle idle]
  rfl

theorem sendVerdict_copy_wait (room : s.fieldPort.partQueue.length + s.fieldPort.waiters.length < 128)
    (full : ¬s.trunkPort.partQueue.length + s.trunkPort.waiters.length < 128) : sendVerdict .ownCopy f s = { s with
      fieldPort := { s.fieldPort with partQueue := s.fieldPort.partQueue ++ [f] }
      trunkPort := { s.trunkPort with waiters := s.trunkPort.waiters ++ [.admission] }
      admission := { outbox := [(.trunk, f)] } } := by
  rw [sendVerdict_idle idle, verdictFrames, writeAll_room (p := .field) (s := s) _ room,
    writeAll_wait (p := .trunk) (s := writeFrame .field f s) [] (by exact full)]
  rfl

end Verdict

/-- R97, R104: while the Admission Unit waits no entry is delivered. -/
theorem deliver_waiting {s : State} (waits : s.admission.outbox ≠ []) : deliver s = none := by
  rw [deliver, if_pos]
  simpa [admissionWaits] using waits

/-- Settles O22: each producer writes its frames where there is room and waits with the rest. -/
theorem messagesWrittenOrWait : Obligations.MessagesWrittenOrWait := by
  unfold Obligations.MessagesWrittenOrWait
  refine ⟨fun e code a s idle => ⟨mgmtWrite_room idle, mgmtWrite_wait idle⟩, fun f s idle => ?_, fun s waits => ?_⟩
  · exact ⟨sendVerdict_own_room idle, sendVerdict_wait idle rfl, sendVerdict_copy_room idle, sendVerdict_copy_wait idle,
      sendVerdict_wait idle rfl⟩
  · refine ⟨?_, ?_, ?_⟩
    · show execTap s = _
      simp only [execTap, event, deliver_waiting waits, ite_self]
    · show execDispatch s = _
      simp only [execDispatch, event, deliver_waiting waits, ite_self]
    · show execRideStatus s = _
      simp only [execRideStatus, event, deliver_waiting waits, ite_self]

end Sys2Proof.Machine
end

section
/-! PROOFS. Chapter 12, the management commands: what serving each one at the head of the intake does. -/

namespace Sys2Proof.Machine

/-! ## Indices -/

theorem index?_val {n : Nat} (i : Fin n) : index? n i.val = some i := dif_pos i.isLt

theorem index?_beyond {n v : Nat} (beyond : n ≤ v) : index? n v = none := dif_neg (Nat.not_lt.2 beyond)

theorem index?_within {n v : Nat} (within : v < n) : index? n v = some ⟨v, within⟩ := dif_pos within

/-! ## The served commands (R184) -/

section Served

variable {s : State} {e : MgmtEntry} {rest : List MgmtEntry} (head : mgmtHead s e rest)
include head

/-- R184: a served command is answered on the state without it. -/
theorem event_serve_of_mgmtHead {code : Nat} {f : MgmtCommand → State → Option (Answer × State)} {x : Answer × State}
    (acts : f e.command { s with mgmtIntake := rest } = some x) :
    event (serve code f) s = .next (mgmtFinish [mgmtReply e code x.1] x.2) := serve_of_mgmtHead head acts

theorem exec_statusReadPart_of_head {sect i : Nat} {x : Answer × State} (command : e.command = .statusRead sect i)
    (acts : statusOf 1 sect i { s with mgmtIntake := rest } = some x) :
    exec .statusReadPart s = .next (mgmtFinish [mgmtReply e 0x01 x.1] x.2) :=
  event_serve_of_mgmtHead head (by simp only [command, acts])

theorem exec_statusReadRide_of_head {sect i : Nat} {x : Answer × State} (command : e.command = .statusRead sect i)
    (acts : statusOf 2 sect i { s with mgmtIntake := rest } = some x) :
    exec .statusReadRide s = .next (mgmtFinish [mgmtReply e 0x01 x.1] x.2) :=
  event_serve_of_mgmtHead head (by simp only [command, acts])

theorem exec_statusReadBoard_of_head {sect i : Nat} {x : Answer × State} (command : e.command = .statusRead sect i)
    (acts : statusOf 3 sect i { s with mgmtIntake := rest } = some x) :
    exec .statusReadBoard s = .next (mgmtFinish [mgmtReply e 0x01 x.1] x.2) :=
  event_serve_of_mgmtHead head (by simp only [command, acts])

theorem exec_tableRead_of_head {table index : Nat} {fields : List Nat} {x : Answer × State}
    (command : e.command = .tableRead table index fields)
    (acts : tableRead table index fields { s with mgmtIntake := rest } = x) :
    exec .tableRead s = .next (mgmtFinish [mgmtReply e 0x02 x.1] x.2) :=
  event_serve_of_mgmtHead head (by simp only [command, acts])

theorem exec_tableWrite_of_head {table index : Nat} {items : List (Nat × Nat)} (order : List BoardIx) {x : Answer × State}
    (command : e.command = .tableWrite table index items)
    (acts : tableWrite table index items order { s with mgmtIntake := rest } = x) :
    exec (.tableWrite order) s = .next (mgmtFinish [mgmtReply e 0x03 x.1] x.2) :=
  event_serve_of_mgmtHead head (by simp only [command, acts])

theorem exec_dayOpen_of_head {x : Answer × State} (command : e.command = .dayOpen)
    (acts : dayOpen { s with mgmtIntake := rest } = x) :
    exec .dayOpen s = .next (mgmtFinish [mgmtReply e 0x04 x.1] x.2) :=
  event_serve_of_mgmtHead head (by simp only [command, acts])

theorem exec_phaseSet_of_head {code : Nat} {x : Answer × State} (command : e.command = .phaseSet code)
    (acts : phaseSet code { s with mgmtIntake := rest } = x) :
    exec .phaseSet s = .next (mgmtFinish [mgmtReply e 0x05 x.1] x.2) :=
  event_serve_of_mgmtHead head (by simp only [command, acts])

theorem exec_dayClose_of_head {x : Answer × State} (command : e.command = .dayClose)
    (acts : dayClose { s with mgmtIntake := rest } = x) :
    exec .dayClose s = .next (mgmtFinish [mgmtReply e 0x06 x.1] x.2) :=
  event_serve_of_mgmtHead head (by simp only [command, acts])

theorem exec_clockSet_of_head {hours minutes seconds : Nat} {x : Answer × State}
    (command : e.command = .clockSet hours minutes seconds)
    (acts : clockSet hours minutes seconds { s with mgmtIntake := rest } = x) :
    exec .clockSet s = .next (mgmtFinish [mgmtReply e 0x07 x.1] x.2) :=
  event_serve_of_mgmtHead head (by simp only [command, acts])

theorem exec_clockTrim_of_head {seconds : Int} (orders : List (List Boundary)) {x : Answer × State}
    (command : e.command = .clockTrim seconds) (acts : clockTrim seconds orders { s with mgmtIntake := rest } = x) :
    exec (.clockTrim orders) s = .next (mgmtFinish [mgmtReply e 0x08 x.1] x.2) :=
  event_serve_of_mgmtHead head (by simp only [command, acts])

theorem exec_rideOverride_of_head {ride state : Nat} {x : Answer × State} (command : e.command = .rideOverride ride state)
    (acts : rideOverride ride state { s with mgmtIntake := rest } = x) :
    exec .rideOverride s = .next (mgmtFinish [mgmtReply e 0x09 x.1] x.2) :=
  event_serve_of_mgmtHead head (by simp only [command, acts])

theorem exec_boardMode_of_head {board mode : Nat} {x : Answer × State} (command : e.command = .boardMode board mode)
    (acts : boardMode board mode { s with mgmtIntake := rest } = x) :
    exec .boardMode s = .next (mgmtFinish [mgmtReply e 0x0A x.1] x.2) :=
  event_serve_of_mgmtHead head (by simp only [command, acts])

theorem exec_noticeSet_of_head {flags : BitVec 16} {target : Addr} {x : Answer × State}
    (command : e.command = .noticeSet flags target) (acts : noticeSet flags target { s with mgmtIntake := rest } = x) :
    exec .noticeSet s = .next (mgmtFinish [mgmtReply e 0x0B x.1] x.2) :=
  event_serve_of_mgmtHead head (by simp only [command, acts])

theorem exec_noticeClear_of_head {flags : BitVec 16} {x : Answer × State} (command : e.command = .noticeClear flags)
    (acts : noticeClear flags { s with mgmtIntake := rest } = x) :
    exec .noticeClear s = .next (mgmtFinish [mgmtReply e 0x0C x.1] x.2) :=
  event_serve_of_mgmtHead head (by simp only [command, acts])

theorem exec_countsRead_of_head {first count : Nat} {x : Answer × State} (command : e.command = .countsRead first count)
    (acts : countsRead first count { s with mgmtIntake := rest } = x) :
    exec .countsRead s = .next (mgmtFinish [mgmtReply e 0x0D x.1] x.2) :=
  event_serve_of_mgmtHead head (by simp only [command, acts])

theorem exec_calendarRead_of_head {ride first count : Nat} {x : Answer × State}
    (command : e.command = .calendarRead ride first count)
    (acts : calendarRead ride first count { s with mgmtIntake := rest } = x) :
    exec .calendarRead s = .next (mgmtFinish [mgmtReply e 0x0E x.1] x.2) :=
  event_serve_of_mgmtHead head (by simp only [command, acts])

theorem exec_guestReadExact_of_head {c : Credential} {x : Answer × State} (command : e.command = .guestRead 1 c)
    (acts : guestReadExact c { s with mgmtIntake := rest } = x) :
    exec .guestReadExact s = .next (mgmtFinish [mgmtReply e 0x0F x.1] x.2) :=
  event_serve_of_mgmtHead head (by simp only [command, acts, if_true])

theorem exec_guestReadNext_of_head {c : Credential} {x : Answer × State} (command : e.command = .guestRead 2 c)
    (acts : guestReadNext c { s with mgmtIntake := rest } = x) :
    exec .guestReadNext s = .next (mgmtFinish [mgmtReply e 0x0F x.1] x.2) :=
  event_serve_of_mgmtHead head (by simp only [command, acts, if_true])

/-- R199: a mode of GUEST_READ that is neither EXACT nor NEXT. -/
theorem exec_guestRead_of_head {mode : Nat} {c : Credential} (command : e.command = .guestRead mode c) (notExact : mode ≠ 1)
    (notNext : mode ≠ 2) :
    exec .guestReadExact s = .next (mgmtFinish [mgmtReply e 0x0F { result := .badValue }] { s with mgmtIntake := rest }) ∧
      exec .guestReadNext s =
        .next (mgmtFinish [mgmtReply e 0x0F { result := .badValue }] { s with mgmtIntake := rest }) :=
  ⟨event_serve_of_mgmtHead head (x := answered .badValue _) (by simp only [command, notExact, notNext, if_false]),
    event_serve_of_mgmtHead head (x := answered .badValue _) (by simp only [command, notExact, notNext, if_false])⟩

theorem exec_passRevoke_of_head {ride : Nat} {c : Credential} {x : Answer × State} (command : e.command = .passRevoke ride c)
    (acts : passRevoke ride c { s with mgmtIntake := rest } = x) :
    exec .passRevoke s = .next (mgmtFinish [mgmtReply e 0x10 x.1] x.2) :=
  event_serve_of_mgmtHead head (by simp only [command, acts])

end Served

end Sys2Proof.Machine
end

section
/-! PROOFS. The read commands (O23): their answers, and the layout of their reply fields. -/

namespace Sys2Proof.Machine

/-! ## The answers of the reads -/

section Reads

variable {s : State}

theorem statusOf_part (i : Nat) (s : State) :
    statusOf 1 1 i s = some ({ result := .done, fields := partStatus s }, s) := rfl

theorem statusOf_ride (r : Ride) (s : State) :
    statusOf 2 2 r.val s = some ({ result := .done, fields := rideStatus s r }, s) := by
  simp only [statusOf, statusRead, index?_val, true_or, if_true]

theorem statusOf_ride_beyond {i : Nat} (beyond : 48 ≤ i) (s : State) : statusOf 2 2 i s = some (answered .badIndex s) := by
  simp only [statusOf, statusRead, index?_beyond beyond, true_or, if_true]

theorem statusOf_board (b : BoardIx) (s : State) :
    statusOf 3 3 b.val s = some ({ result := .done, fields := boardStatus s b }, s) := by
  simp only [statusOf, statusRead, index?_val, true_or, if_true]

theorem statusOf_board_beyond {i : Nat} (beyond : 64 ≤ i) (s : State) : statusOf 3 3 i s = some (answered .badIndex s) := by
  simp only [statusOf, statusRead, index?_beyond beyond, true_or, if_true]

/-- R188: a section that is none of the three is answered by every row of the command (log 6). -/
theorem statusOf_other {sect : Nat} (own i : Nat) (other : sect ∉ [1, 2, 3]) (s : State) :
    statusOf own sect i s = some (answered .badValue s) := by
  simp only [List.mem_cons, List.not_mem_nil, or_false, not_or] at other
  have outside : sect = own ∨ sect = 0 ∨ 3 < sect := by omega
  rw [statusOf, if_pos outside]
  match sect with
  | 0 => rfl
  | 1 | 2 | 3 => omega
  | _ + 4 => rfl

theorem tableOf_eq_none {table : Nat} : tableOf table = none ↔ table ∉ [1, 2, 3, 4, 5] := by
  match table with
  | 0 | 1 | 2 | 3 | 4 | 5 => simp [tableOf]
  | n + 6 => simp [tableOf]

theorem tableRead_done {table index : Nat} {fields : List Nat} {t : TableId} {x : Entry} (named : tableOf table = some t)
    (entry : entryAt t index = some x) (inTable : ∀ n ∈ fields, 1 ≤ n ∧ n ≤ lastField t) (distinct : fields.Nodup)
    (s : State) : tableRead table index fields s = ({ result := .done, fields := fieldBytes s t x fields }, s) := by
  rw [tableRead, judgeNames_of named entry, if_pos ⟨inTable, distinct⟩]

theorem tableRead_badFields {table index : Nat} {fields : List Nat} {t : TableId} {x : Entry}
    (named : tableOf table = some t) (entry : entryAt t index = some x)
    (bad : (∃ n ∈ fields, n = 0 ∨ lastField t < n) ∨ ¬fields.Nodup) (s : State) :
    tableRead table index fields s = answered .badValue s := by
  have fails : ¬((∀ n ∈ fields, 1 ≤ n ∧ n ≤ lastField t) ∧ fields.Nodup) := by
    rintro ⟨inTable, distinct⟩
    rcases bad with ⟨n, member, outside⟩ | twice
    · have := inTable n member
      omega
    · exact twice distinct
  rw [tableRead, judgeNames_of named entry, if_neg fails]

theorem countsRead_done {first count : Nat} (within : first ≤ 47) (some : 1 ≤ count) (atMost : count ≤ 48) (s : State) :
    countsRead first count s = ({ result := .done, fields := countsBytes s first count }, s) := by
  rw [countsRead, if_neg (by omega), if_neg (by omega)]

/-- R189: the first byte of a COUNTS_READ's fields is the number of rides that follow. -/
theorem countsBytes_eq (s : State) (first count : Nat) : countsBytes s first count =
    enc1 (min count (48 - first)) ++ (((indices 48).drop first).take count).flatMap (countBytes s) := by
  have number : (((indices 48).drop first).take count).length = min count (48 - first) := by simp [indices]
  rw [countsBytes]
  simp only [number]

section CalendarRead

variable {r : Ride} {first count : Nat} (some : 1 ≤ count) (atMost : count ≤ 96)
include some atMost

theorem calendarRead_of_count (s : State) : calendarRead r.val first count s =
    if inDay s.day.phase = false ∨ rideState s r = .off then answered .notFound s
    else if (look s.calendar.windows r).length ≤ first then answered .badIndex s
    else ({ result := .done, fields := calendarBytes s r first count }, s) := by
  simp only [calendarRead, index?_val]
  rw [if_neg (by omega)]

end CalendarRead

theorem calendarRead_badCount {ride first count : Nat} (within : ride < 48) (bad : count = 0 ∨ 96 < count) (s : State) :
    calendarRead ride first count s = answered .badValue s := by
  simp only [calendarRead, index?_within within, if_pos bad]

theorem guestReadExact_found {c : Credential} {g : Guest} (valid : validCredential c = true)
    (found : guestOf c s.guests = some g) :
    guestReadExact c s = ({ result := .done, fields := guestBytes s g }, s) := by
  simp only [guestReadExact, valid, if_true, found]

theorem guestReadExact_absent {c : Credential} (valid : validCredential c = true) (absent : guestOf c s.guests = none) :
    guestReadExact c s = answered .notFound s := by
  simp only [guestReadExact, valid, if_true, absent]

theorem guestReadExact_invalid {c : Credential} (invalid : validCredential c = false) :
    guestReadExact c s = answered .badValue s := by
  simp only [guestReadExact, invalid, Bool.false_eq_true, if_false]

theorem guestReadNext_found {c : Credential} {g : Guest} {before after : List Guest} (guests : s.guests = before ++ g :: after)
    (below : ∀ x ∈ before, x.credential.toNat ≤ c.toNat) (above : c.toNat < g.credential.toNat) :
    guestReadNext c s = ({ result := .done, fields := guestBytes s g }, s) := by
  have first : s.guests.find? (fun g => decide (c.toNat < g.credential.toNat)) = some g :=
    List.find?_eq_some_iff_append.2 ⟨decide_eq_true above, before, after, guests, fun x hx => by simpa using below x hx⟩
  rw [guestReadNext, first]

theorem guestReadNext_last {c : Credential} (none : ∀ x ∈ s.guests, x.credential.toNat ≤ c.toNat) :
    guestReadNext c s = answered .notFound s := by
  have absent : s.guests.find? (fun g => decide (c.toNat < g.credential.toNat)) = .none :=
    List.find?_eq_none.2 fun x hx => by simpa using none x hx
  rw [guestReadNext, absent]

end Reads

/-! ## The layout of the reply fields (R203) -/

theorem clockBytes_eq (clock : Option Nat) : clockBytes clock =
    laidOut (clock.elim [(3, 0xFFFFFF)] fun t => [(1, t / 3600), (1, t / 60 % 60), (1, t % 60)]) := by
  cases clock with
  | none => rfl
  | some t => simp [clockBytes, laidOut_one]

theorem itemBytes_eq (s : State) : itemBytes s = laidOut (s.walker.item.elim [(5, 0xFFFFFFFFFF)] fun i =>
    [(1, i.ride.val), (1, i.window), (1, workKindCode i.kind), (2, holdersLeft s i)]) := by
  cases item : s.walker.item with
  | none => simp only [itemBytes, item]; rfl
  | some i => simp [itemBytes, item, laidOut_one, laidOut_two]

theorem displacingMask_eq (s : State) : displacingMask s =
    ((indices 48).map fun r => if 0 < look s.walker.displacing r then 2 ^ r.val else 0).sum := by
  simp only [displacingMask, isDisplacing, decide_eq_true_eq]

theorem tallyBytes_eq (y : Tally) : tallyBytes y = laidOut ([(2, y.marks.length), (2, (y.marks.map Mark.count).sum),
    yesOr y.saturated, (3, y.buckets.sum * 4), noneOr 2 (y.lastObserved.map ObservedWait.minutes),
    noneOr 3 (y.lastObserved.map ObservedWait.observedAt), (2, y.estimate)] ++ postedItems y.posted) := by
  simp only [laidOut_append, laidOut_two, laidOut_yes, laidOut_three, laidOut_none2, laidOut_none3, laidOut_posted,
    laidOut_nil, List.append_nil, tallyBytes, List.append_assoc]
  rfl

theorem monitorBytes_eq (m : Monitor) (f : CapacityFields) : monitorBytes m f =
    laidOut (attributeItems m.throughput f.throughputThreshold ++ attributeItems m.noShow f.noshowThreshold ++
      attributeItems m.mergeLoad f.mergeloadThreshold ++ [(1, m.derate), (1, m.overbook), (1, m.throttle),
        (1, m.evaluations), noneOr 1 (m.lastEvaluation.map Prod.fst), noneOr 2 (m.lastEvaluation.map Prod.snd)]) := by
  simp only [laidOut_append, laidOut_attribute, laidOut_one, laidOut_none1, laidOut_none2, laidOut_nil, List.append_nil,
    monitorBytes, List.append_assoc]

theorem windowBytes_eq (k : Nat) (w : Window) : windowBytes k w = laidOut [(1, k), (2, w.start), (2, w.stop),
    (1, windowStateCode w.state), yesOr w.ended, (2, w.capacity), (2, w.limit), (2, w.booked), (2, w.held), (2, w.redeemed),
    (2, w.expired), (2, w.movedOut), (2, w.holders.length)] := by
  simp only [laidOut_one, laidOut_two, laidOut_yes, laidOut_nil, List.append_nil, windowBytes, List.append_assoc]

theorem partStatus_eq (s : State) : partStatus s = laidOut ([(1, phaseCode s.day.phase)] ++
    (s.day.clock.elim [(3, 0xFFFFFF)] fun t => [(1, t / 3600), (1, t / 60 % 60), (1, t % 60)]) ++
    [(2, s.nodeAddress.toNat), (1, outcomeCode s.day.check.outcome), noneOr 1 (s.day.check.firstCode.map checkCodeNumber),
      noneOr 1 (s.day.check.firstTable.map tableCode), (2, s.day.check.firstIndex), (1, s.day.check.failureCount),
      (3, s.guests.length), (1, s.engine.kiosk.length), (1, s.engine.remote.length), (1, s.engine.heldList.length),
      (1, lastQueueCode s.engine.lastQueue), (1, s.engine.run), (2, s.walker.workList.length)] ++
    (s.walker.item.elim [(5, 0xFFFFFFFFFF)] fun i =>
      [(1, i.ride.val), (1, i.window), (1, workKindCode i.kind), (2, holdersLeft s i)]) ++
    [(6, displacingMask s), (1, s.fieldPort.receiveBuffer.length), (1, s.fieldPort.relayQueue.length),
      (1, s.fieldPort.partQueue.length), (1, s.trunkPort.receiveBuffer.length), (1, s.trunkPort.relayQueue.length),
      (1, s.trunkPort.partQueue.length), (2, s.fieldIntake.length), (1, s.mgmtIntake.length),
      (2, s.management.flags.toNat), yesOr s.management.hold, (2, s.day.enableSet.toNat),
      (2, s.day.park.noticeTarget.toNat)]) := by
  simp only [laidOut_append, laidOut_one, laidOut_two, laidOut_three, laidOut_six, laidOut_none1, laidOut_yes, laidOut_nil,
    List.append_nil, ← clockBytes_eq, ← itemBytes_eq]
  unfold partStatus checkBytes portBytes encWord encFlags
  simp only [List.append_assoc]

theorem rideStatus_eq (s : State) (r : Ride) : rideStatus s r =
    let y := look s.tallies r
    let m := look s.monitors r
    let f := (look s.rideTable r).inEffect
    laidOut ([(1, rideStateCode (look s.rides r).state), (2, (look s.rides r).credit),
      (2, y.marks.length), (2, (y.marks.map Mark.count).sum), yesOr y.saturated, (3, y.buckets.sum * 4),
      noneOr 2 (y.lastObserved.map ObservedWait.minutes), noneOr 3 (y.lastObserved.map ObservedWait.observedAt),
      (2, y.estimate)] ++ postedItems y.posted ++ attributeItems m.throughput f.throughputThreshold ++
      attributeItems m.noShow f.noshowThreshold ++ attributeItems m.mergeLoad f.mergeloadThreshold ++
      [(1, m.derate), (1, m.overbook), (1, m.throttle), (1, m.evaluations), noneOr 1 (m.lastEvaluation.map Prod.fst),
        noneOr 2 (m.lastEvaluation.map Prod.snd)] ++ postedItems (look s.heldValues r)) := by
  unfold rideStatus rideState rideEntry
  rw [tallyBytes_eq, monitorBytes_eq]
  simp only [laidOut_append, laidOut_one, laidOut_two, laidOut_posted, List.append_assoc]

theorem passBytes_window {s : State} {p : Pass} {k : Nat} (place : p.place = .window k) : passBytes s p =
    laidOut ([(1, p.ride.val), (1, p.party), (1, k), (1, p.moves), (1, originCode p.origin), (2, p.grantMinute),
      (2, (look s.rideTable p.ride).label.toNat)] ++
        (windowOf s p.ride k).elim [(2, 0), (2, 0)] fun w => [(2, w.start), (2, w.stop)]) := by
  cases window : windowOf s p.ride k <;>
    simp [passBytes, passSpan, place, window, laidOut_one, laidOut_two, encWord, rideEntry]

theorem passBytes_flex {s : State} {p : Pass} (place : p.place = .flex) : passBytes s p =
    laidOut [(1, p.ride.val), (1, p.party), (1, 0xFF), (1, p.moves), (1, originCode p.origin), (2, p.grantMinute),
      (2, (look s.rideTable p.ride).label.toNat), (2, 0), (2, 0)] := by
  simp [passBytes, passSpan, place, laidOut_one, laidOut_two, encWord, rideEntry, encNone, enc1]

/-! ## The lengths of the reply fields -/

/-- The bytes that items take. -/
theorem length_laidOut (items : List (Nat × Nat)) : (laidOut items).length = (items.map Prod.fst).sum := by
  induction items with
  | nil => rfl
  | cons x xs ih => simp [laidOut_cons, bigEndian, ih]

theorem length_enc1 (n : Nat) : (enc1 n).length = 1 := rfl
theorem length_enc2 (n : Nat) : (enc2 n).length = 2 := rfl
theorem length_enc3 (n : Nat) : (enc3 n).length = 3 := rfl

theorem length_postedItems (v : Posted) : ((postedItems v).map Prod.fst).sum = 2 := by
  cases v <;> rfl

theorem length_attributeItems (a : AttributeRecord) (threshold : Nat) :
    ((attributeItems a threshold).map Prod.fst).sum = 6 := rfl

theorem length_countBytes (s : State) (r : Ride) : (countBytes s r).length = 43 := by
  simp only [countBytes, List.length_append, length_enc1, length_enc2, length_enc3]

theorem length_windowBytes (k : Nat) (w : Window) : (windowBytes k w).length = 23 := by
  simp only [windowBytes, List.length_append, encBool, length_enc1, length_enc2]

theorem length_passBytes (s : State) (p : Pass) : (passBytes s p).length = 13 := by
  cases place : p.place with
  | flex =>
    rw [passBytes_flex place, length_laidOut]
    rfl
  | window k =>
    rw [passBytes_window place, length_laidOut]
    cases windowOf s p.ride k <;> rfl

theorem length_flatMap_const {α : Type} (l : List α) (f : α → List Byte) {n : Nat} (each : ∀ a, (f a).length = n) :
    (l.flatMap f).length = n * l.length := by
  induction l with
  | nil => rfl
  | cons a l ih =>
    rw [List.flatMap_cons, List.length_append, ih, each, List.length_cons, Nat.mul_succ]
    omega

theorem length_partStatus (s : State) : (partStatus s).length = 49 := by
  rw [partStatus_eq, length_laidOut]
  cases s.day.clock <;> cases s.walker.item <;> simp [noneOr, yesOr]

theorem length_rideStatus (s : State) (r : Ride) : (rideStatus s r).length = 47 := by
  have tally (y : Tally) : (tallyBytes y).length = 17 := by
    rw [tallyBytes_eq, length_laidOut, List.map_append, List.sum_append, length_postedItems]
    rfl
  have monitor (m : Monitor) (f : CapacityFields) : (monitorBytes m f).length = 25 := by
    simp only [monitorBytes_eq, length_laidOut, List.map_append, List.sum_append, length_attributeItems]
    rfl
  simp only [rideStatus, List.length_append, tally, monitor, postedBytes, length_enc1, length_enc2]

theorem length_boardStatus (s : State) (b : BoardIx) : (boardStatus s b).length = 3 := rfl

theorem length_countsBytes (s : State) (first count : Nat) :
    (countsBytes s first count).length = 1 + 43 * min count (48 - first) := by
  simp only [countsBytes_eq, List.length_append, length_enc1, length_flatMap_const _ _ (length_countBytes s), indices,
    List.length_take, List.length_drop, List.length_finRange]

theorem length_calendarBytes (s : State) (r : Ride) (first count : Nat) : (calendarBytes s r first count).length =
    1 + 23 * min count ((look s.calendar.windows r).length - first) + 6 := by
  simp only [calendarBytes, List.length_append, length_flatMap_const _ _ fun x : Window × Nat => length_windowBytes x.2 x.1,
    length_enc1, length_enc3, List.length_take, List.length_drop, List.length_zipIdx]

theorem length_guestBytes (s : State) (g : Guest) : (guestBytes s g).length = 7 + 13 * g.passes.length + 3 := by
  simp only [guestBytes, List.length_append, length_flatMap_const _ _ (length_passBytes s), encCred, length_enc1,
    length_enc3]

theorem length_fieldBytes (s : State) (t : TableId) (x : Entry) (fields : List Nat) :
    (fieldBytes s t x fields).length = 3 * if fields = [] then lastField t else fields.length := by
  rw [fieldBytes, length_flatMap_const (n := 3) _ _ fun n => rfl]
  cases fields <;> simp

/-! ## The statement -/

/-- R187, R202: the values of the numbered fields of an entry. -/
def fieldValues (s : State) (x : Entry) (n : Nat) : List Nat := (List.range n).map fun i => readField s x (i + 1)

theorem fieldValues_park (s : State) : fieldValues s .park 8 = [s.day.park.passesPerGuest, s.day.park.openMinute,
    s.day.park.lastCallMinute, if s.day.park.arbiterMode = .fixed then 0 else 1, s.day.park.runLimit, s.day.park.holdLimit,
    s.day.park.gatewayAddress.toNat, s.day.park.noticeTarget.toNat] := by
  have mode : readPark s.day.park 4 = if s.day.park.arbiterMode = .fixed then 0 else 1 := by
    cases h : s.day.park.arbiterMode <;> simp [readPark, h]
  rw [← mode]
  rfl

theorem fieldValues_ride (s : State) (r : Ride) : fieldValues s (.ride r) 17 =
    let e := look s.rideTable r
    let w := e.written
    [e.label.toNat, if e.enabled then 1 else 0, e.controllerAddress.toNat, e.profile.val, w.hourlyCapacity, w.passShare,
      w.reserveShare, w.overbookCap, w.throttleStep, w.derateFloor, w.throughputThreshold, w.noshowThreshold,
      w.mergeloadThreshold, if e.displacePolicy = .shift then 0 else 1, e.gapLimit, curveValue e.postingCurve,
      if e.controllerRelay then 1 else 0] := by
  have policy : readRide (look s.rideTable r) 14 = if (look s.rideTable r).displacePolicy = .shift then 0 else 1 := by
    cases h : (look s.rideTable r).displacePolicy <;> simp [readRide, h]
  simp only [← policy]
  rfl

theorem fieldValues_reader (s : State) (i : ReaderIx) : fieldValues s (.reader i) 5 =
    let e := look s.readers i
    [e.address.toNat, e.ride.val, if e.role = .standbyEntry then 0 else 1, readReader e 4, if e.used then 1 else 0] := by
  have role : readReader (look s.readers i) 3 = if (look s.readers i).role = .standbyEntry then 0 else 1 := by
    cases h : (look s.readers i).role <;> simp [readReader, h]
  simp only [← role]
  rfl

/-- R74: the items of a pass of a GUEST_READ. -/
def passItems (s : State) (p : Pass) : List (Nat × Nat) :=
  [(1, p.ride.val), (1, p.party)] ++
    (match p.place with
      | .window k => [(1, k)]
      | .flex => [(1, 0xFF)]) ++
    [(1, p.moves), (1, originCode p.origin), (2, p.grantMinute), (2, (look s.rideTable p.ride).label.toNat)] ++
    (match p.place with
      | .window k => (windowOf s p.ride k).elim [(2, 0), (2, 0)] fun w => [(2, w.start), (2, w.stop)]
      | .flex => [(2, 0), (2, 0)])

theorem passBytes_eq (s : State) (p : Pass) : passBytes s p = laidOut (passItems s p) := by
  cases place : p.place with
  | window k =>
    simp only [passItems, place]
    exact passBytes_window place
  | flex =>
    simp only [passItems, place]
    exact passBytes_flex place

theorem guestBytes_eq (s : State) (g : Guest) : guestBytes s g = laidOut ([(6, g.credential.toNat), (1, g.passes.length)] ++
    g.passes.flatMap (passItems s) ++ [(3, s.guests.length)]) := by
  have passes : passBytes s = fun p => laidOut (passItems s p) := funext (passBytes_eq s)
  simp only [guestBytes, encCred, passes, laidOut_append, laidOut_flatMap, laidOut_six, laidOut_one, laidOut_three,
    laidOut_nil, List.append_nil, List.append_assoc]

/-- Settles O23: each read is answered from the head of the intake; its fields are laid out item by item. -/
theorem readCommandsAnswered : Obligations.ReadCommandsAnswered := by
  unfold Obligations.ReadCommandsAnswered
  refine ⟨?answers, fun s => ?lengths, fun s => ?layouts, ?codes, fun s => ?values⟩
  case answers =>
    intro e rest s head s1 done only
    refine ⟨fun i command => exec_statusReadPart_of_head head command (statusOf_part i s1),
      fun r command => exec_statusReadRide_of_head head command (statusOf_ride r s1),
      fun i beyond command => exec_statusReadRide_of_head head command (statusOf_ride_beyond beyond s1),
      fun b command => exec_statusReadBoard_of_head head command (statusOf_board b s1),
      fun i beyond command => exec_statusReadBoard_of_head head command (statusOf_board_beyond beyond s1),
      fun sect i other command => ⟨exec_statusReadPart_of_head head command (statusOf_other 1 i other s1),
        exec_statusReadRide_of_head head command (statusOf_other 2 i other s1),
        exec_statusReadBoard_of_head head command (statusOf_other 3 i other s1)⟩, ?_, ?_, ?_, ?_, ?_, ?_, ?_, ?_, ?_, ?_, ?_,
      ?_, ?_⟩
    · intro table index fields t x command named entry inTable distinct
      rw [exec_tableRead_of_head head command (tableRead_done named entry inTable distinct s1)]
      cases fields <;> rfl
    · intro table index fields command
      refine ⟨fun unnamed => ?_, fun t named => ⟨fun absent => ?_, fun x entry bad => ?_⟩⟩
      · exact exec_tableRead_of_head head command (x := answered .badValue s1)
          (by rw [tableRead, judgeNames_noTable (tableOf_eq_none.2 unnamed)])
      · exact exec_tableRead_of_head head command (x := answered .badIndex s1)
          (by rw [tableRead, judgeNames_noEntry named absent])
      · exact exec_tableRead_of_head head command (tableRead_badFields named entry bad s1)
    · intro first count command within some atMost
      rw [exec_countsRead_of_head head command (countsRead_done within some atMost s1), countsBytes_eq]
    · exact fun first count command beyond =>
        exec_countsRead_of_head head command (x := answered .badIndex s1) (if_pos beyond)
    · exact fun first count command within bad =>
        exec_countsRead_of_head head command (x := answered .badValue s1) ((if_neg (by omega)).trans (if_pos bad))
    · intro r first count command some atMost
      refine ⟨fun shut => ?_, fun day on => ?_⟩
      · exact exec_calendarRead_of_head head command ((calendarRead_of_count some atMost s1).trans (if_pos shut))
      · have opened : ¬(inDay s1.day.phase = false ∨ rideState s1 r = .off) := by
          rintro (night | off)
          · exact absurd (day.symm.trans night) (by decide)
          · exact on off
        have reads := (calendarRead_of_count (r := r) (first := first) some atMost s1).trans (if_neg opened)
        exact ⟨fun within => exec_calendarRead_of_head head command (reads.trans (if_neg (Nat.not_le.2 within))),
          fun beyond => exec_calendarRead_of_head head command (reads.trans (if_pos beyond))⟩
    · exact fun ride first count command => ⟨fun beyond => exec_calendarRead_of_head head command
        (x := answered .badIndex s1) (by rw [calendarRead, index?_beyond beyond]),
        fun within bad => exec_calendarRead_of_head head command (calendarRead_badCount within bad s1)⟩
    · exact fun mode c command notExact notNext => exec_guestRead_of_head head command notExact notNext
    · exact fun c g command valid found =>
        exec_guestReadExact_of_head head command (guestReadExact_found (s := s1) valid found)
    · exact fun c command valid absent =>
        exec_guestReadExact_of_head head command (guestReadExact_absent (s := s1) valid absent)
    · exact fun c command invalid => exec_guestReadExact_of_head head command (guestReadExact_invalid (s := s1) invalid)
    · exact fun c before g after command guests below above =>
        exec_guestReadNext_of_head head command (guestReadNext_found (s := s1) guests below above)
    · exact fun c command none => exec_guestReadNext_of_head head command (guestReadNext_last (s := s1) none)
  case lengths =>
    exact ⟨length_partStatus s, length_rideStatus s, length_boardStatus s, length_countsBytes s, length_calendarBytes s,
      length_guestBytes s, fun x => rfl, length_fieldBytes s⟩
  case layouts =>
    refine ⟨?_, fun r => ?_, fun b => ?_, fun r => ?_, fun r first count => ?_, fun g => ?_, fun x => ?_,
      fun n => ⟨(bigEndian_one n).symm, (bigEndian_two n).symm⟩⟩
    · rw [partStatus_eq, displacingMask_eq]
      cases s.day.clock <;> cases s.walker.item <;> simp only [Option.elim_none, Option.elim_some, holdersLeft]
    · rw [rideStatus_eq]
    · simp only [laidOut_one, laidOut_yes, laidOut_nil, List.append_nil, boardStatus, boardOf, List.append_assoc]
    · simp only [laidOut_one, laidOut_two, laidOut_three, laidOut_nil, List.append_nil, countBytes, List.append_assoc]
    · simp only [laidOut_append, laidOut_flatMap, windowBytes_eq, laidOut_one, laidOut_three, laidOut_nil,
        List.append_nil, calendarBytes, List.append_assoc]
    · exact guestBytes_eq s g
    · simp only [laidOut_one, laidOut_two, laidOut_yes, laidOut_nil, List.append_nil, removedBytes, List.append_assoc]
  case codes => exact ⟨rfl, rfl, rfl, rfl, rfl, rfl, rfl, rfl, rfl, rfl⟩
  case values =>
    exact ⟨fieldValues_park s, fun i => rfl, fun r => fieldValues_ride s r, fun i => fieldValues_reader s i, fun b => rfl⟩

end Sys2Proof.Machine
end

section
/-! PROOFS. The loaded tables: what a field write leaves in each field (R187, R202), and the judging of a TABLE_WRITE (O24). -/

namespace Sys2Proof.Machine

/-! ## Reading after writing -/

section WriteItems

variable {α : Type} {w : α → Nat → Nat → α} {items : List (Nat × Nat)}

/-- A field that only the writes of number `n` set holds, after the writes, the value named for `n`, or else the old value. -/
theorem read_writeItems (read : α → Nat) (n : Nat) (distinct : (items.map Prod.fst).Nodup)
    (same : ∀ e, ∀ i ∈ items, i.1 = n → read (w e i.1 i.2) = i.2)
    (other : ∀ e, ∀ i ∈ items, i.1 ≠ n → read (w e i.1 i.2) = read e) (e : α) :
    read (writeItems w items e) = (items.find? fun i => decide (i.1 = n)).elim (read e) Prod.snd := by
  induction items generalizing e with
  | nil => rfl
  | cons i is ih =>
    obtain ⟨fresh, distinct⟩ := List.nodup_cons.1 distinct
    have rest := ih distinct (fun e j hj => same e j (List.mem_cons_of_mem i hj))
      (fun e j hj => other e j (List.mem_cons_of_mem i hj)) (w e i.1 i.2)
    show read (writeItems w is (w e i.1 i.2)) = _
    rw [rest]
    by_cases here : i.1 = n
    · have none : is.find? (fun j => decide (j.1 = n)) = none :=
        List.find?_eq_none.2 fun j hj => by
          simp only [decide_eq_true_eq]
          exact fun there => fresh (here.trans there.symm ▸ List.mem_map_of_mem hj)
      rw [none, List.find?_cons_of_pos (by simpa using here)]
      exact same e i List.mem_cons_self here
    · rw [List.find?_cons_of_neg (by simpa using here), other e i List.mem_cons_self here]

theorem find?_of_mem {i : Nat × Nat} (distinct : (items.map Prod.fst).Nodup) (member : i ∈ items) :
    items.find? (fun j => decide (j.1 = i.1)) = some i := by
  induction items with
  | nil => cases member
  | cons j js ih =>
    obtain ⟨fresh, distinct⟩ := List.nodup_cons.1 distinct
    rcases List.mem_cons.1 member with rfl | later
    · exact List.find?_cons_of_pos (by simp)
    · rw [List.find?_cons_of_neg, ih distinct later]
      simp only [decide_eq_true_eq]
      exact fun same => fresh (same ▸ List.mem_map_of_mem later)

theorem find?_of_absent {n : Nat} (absent : n ∉ items.map Prod.fst) : items.find? (fun j => decide (j.1 = n)) = none :=
  List.find?_eq_none.2 fun j hj => by
    simp only [decide_eq_true_eq]
    exact fun same => absent (same ▸ List.mem_map_of_mem hj)

end WriteItems

/-! ## One field written -/

section OneField

variable {m n : Nat}

theorem readPark_writePark_other (from1 : 1 ≤ n) (to8 : n ≤ 8) (other : m ≠ n) (p : ParkSettings) (v : Nat) :
    readPark (writePark p m v) n = readPark p n := by
  unfold writePark
  split
  all_goals interval_cases n
  all_goals first | rfl | exact absurd rfl other

theorem readProfile_writeProfile_other (from1 : 1 ≤ n) (to6 : n ≤ 6) (other : m ≠ n) (p : Profile) (v : Nat) :
    readProfile (writeProfile p m v) n = readProfile p n := by
  unfold writeProfile
  split
  all_goals interval_cases n
  all_goals first | rfl | exact absurd rfl other

theorem readReader_writeReader_other (from1 : 1 ≤ n) (to5 : n ≤ 5) (other : m ≠ n) (e : Reader) (v : Nat) :
    readReader (writeReader e m v) n = readReader e n := by
  unfold writeReader
  split
  all_goals interval_cases n
  all_goals first | rfl | exact absurd rfl other

theorem readBoard_writeBoardEntry_other (from1 : 1 ≤ n) (to5 : n ≤ 5) (other : m ≠ n) (e : BoardEntry) (v : Nat) :
    readBoard (writeBoardEntry e m v) n = readBoard e n := by
  unfold writeBoardEntry
  split
  all_goals interval_cases n
  all_goals first | rfl | exact absurd rfl other

/-- The capacity fields by their numbers. -/
def readCapacity (c : CapacityFields) (n : Nat) : Nat :=
  match n with
  | 5 => c.hourlyCapacity
  | 6 => c.passShare
  | 7 => c.reserveShare
  | 8 => c.overbookCap
  | 9 => c.throttleStep
  | 10 => c.derateFloor
  | 11 => c.throughputThreshold
  | 12 => c.noshowThreshold
  | _ => c.mergeloadThreshold

theorem readRide_capacity (from5 : 5 ≤ n) (to13 : n ≤ 13) (e : RideEntry) : readRide e n = readCapacity e.written n := by
  interval_cases n <;> rfl

theorem readCapacity_writeCapacity_other (from5 : 5 ≤ n) (to13 : n ≤ 13) (other : m ≠ n) (c : CapacityFields) (v : Nat) :
    readCapacity (writeCapacity c m v) n = readCapacity c n := by
  unfold writeCapacity
  split
  all_goals interval_cases n
  all_goals first | rfl | exact absurd rfl other

theorem readCapacity_writeCapacity_same (from5 : 5 ≤ n) (to13 : n ≤ 13) (c : CapacityFields) (v : Nat) :
    readCapacity (writeCapacity c n v) n = v := by
  interval_cases n <;> rfl

/-- R19: a write reaches the written capacity fields. -/
theorem written_writeRide (night : Bool) (e : RideEntry) (m v : Nat) :
    (writeRide night e m v).written = writeCapacity e.written m v := by
  unfold writeRide
  split <;> rfl

/-- R19: in NIGHT a write reaches the capacity fields in effect too. -/
theorem inEffect_writeRide (night : Bool) (e : RideEntry) (m v : Nat) :
    (writeRide night e m v).inEffect = if night then writeCapacity e.inEffect m v else e.inEffect := by
  cases night <;> unfold writeRide <;> split <;> rfl

theorem readRide_writeRide_other (from1 : 1 ≤ n) (to17 : n ≤ 17) (other : m ≠ n) (night : Bool) (e : RideEntry) (v : Nat) :
    readRide (writeRide night e m v) n = readRide e n := by
  by_cases capacity : 5 ≤ n ∧ n ≤ 13
  · rw [readRide_capacity capacity.1 capacity.2, readRide_capacity capacity.1 capacity.2, written_writeRide,
      readCapacity_writeCapacity_other capacity.1 capacity.2 other]
  · unfold writeRide
    split
    all_goals interval_cases n
    all_goals first | rfl | exact absurd rfl other | exact absurd ⟨by decide, by decide⟩ capacity

end OneField

/-! ## The tables, the classes and the accepted values (R16, R17, R202) -/

theorem structural_iff {t : TableId} {n : Nat} : structural t n = true ↔
    (t = .park ∧ n = 1) ∨ t = .profile ∨ (t = .ride ∧ n ≤ 4) ∨ (t = .reader ∧ n ≠ 4) := by
  cases t <;> simp [structural]

/-- The bounds of the fields that accept one range of values, by table and field. -/
def acceptedRanges : List (TableId × Nat × Nat × Nat) :=
  [(.park, 1, 1, 4), (.park, 2, 0, 1439), (.park, 3, 0, 1439), (.park, 4, 0, 1), (.park, 5, 1, 15),
    (.park, 6, 2, 30), (.park, 7, 0, 65535), (.park, 8, 0, 65535), (.profile, 1, 0, 60), (.profile, 2, 0, 1439),
    (.profile, 3, 0, 255), (.profile, 4, 0, 120), (.profile, 5, 0, 30), (.profile, 6, 0, 60), (.ride, 1, 0, 65535),
    (.ride, 2, 0, 1), (.ride, 3, 0, 65535), (.ride, 4, 0, 7), (.ride, 5, 0, 4000), (.ride, 6, 0, 90), (.ride, 7, 0, 50),
    (.ride, 8, 0, 25), (.ride, 9, 0, 20), (.ride, 10, 10, 100), (.ride, 11, 0, 200), (.ride, 12, 0, 100),
    (.ride, 13, 0, 100), (.ride, 14, 0, 1), (.ride, 16, 0, 65535), (.ride, 17, 0, 1), (.reader, 1, 0, 65535),
    (.reader, 2, 0, 47), (.reader, 3, 0, 1), (.reader, 4, 0, 3), (.reader, 5, 0, 1), (.board, 1, 0, 65535),
    (.board, 2, 0, 47), (.board, 3, 0, 15), (.board, 4, 5, 120)]

theorem accepts_range : ∀ x ∈ acceptedRanges, ∀ v, v < 65536 →
    (accepts x.1 x.2.1 v = true ↔ x.2.2.1 ≤ v ∧ v ≤ x.2.2.2) := by
  simp only [acceptedRanges, List.forall_mem_cons, List.not_mem_nil, IsEmpty.forall_iff, implies_true, and_true]
  repeat' apply And.intro
  all_goals
    intro v word
    simp only [accepts, parkAccepts, profileAccepts, rideAccepts, readerAccepts, boardAccepts, decide_eq_true_eq,
      true_iff] <;> omega

/-! ## What a write may not leave (R17, R174) -/

theorem boardRangeOk_iff {e : BoardEntry} :
    boardRangeOk e = true ↔ 1 ≤ e.rideCount ∧ e.rideCount ≤ 12 ∧ e.firstRide + e.rideCount ≤ 48 := by
  simp [boardRangeOk, and_assoc]

theorem boardUsed_iff {e : BoardEntry} : boardUsed e = true ↔ e.address.toNat ≠ 0 := by
  rw [boardUsed, bne_iff_ne, ne_eq, ne_eq, ← BitVec.toNat_inj]
  rfl

section Unsound

variable {s : State} {items : List (Nat × Nat)} (distinct : (items.map Prod.fst).Nodup)
include distinct

theorem readPark_writeItems {n : Nat} (from1 : 1 ≤ n) (to8 : n ≤ 8)
    (same : ∀ p, ∀ i ∈ items, i.1 = n → readPark (writePark p n i.2) n = i.2) (p : ParkSettings) :
    readPark (writeItems writePark items p) n = (items.find? fun i => decide (i.1 = n)).elim (readPark p n) Prod.snd :=
  read_writeItems (readPark · n) n distinct (fun p i hi here => by rw [here]; exact same p i hi here)
    (fun p i _ other => readPark_writePark_other from1 to8 other p i.2) p

theorem readBoard_writeItems {n : Nat} (from1 : 1 ≤ n) (to5 : n ≤ 5)
    (same : ∀ e, ∀ i ∈ items, i.1 = n → readBoard (writeBoardEntry e n i.2) n = i.2) (e : BoardEntry) :
    readBoard (writeItems writeBoardEntry items e) n =
      (items.find? fun i => decide (i.1 = n)).elim (readBoard e n) Prod.snd :=
  read_writeItems (readBoard · n) n distinct (fun e i hi here => by rw [here]; exact same e i hi here)
    (fun e i _ other => readBoard_writeBoardEntry_other from1 to5 other e i.2) e

theorem leavesUnsound_park : leavesUnsound s .park items = true ↔
    (items.find? fun i => decide (i.1 = 3)).elim s.day.park.lastCallMinute Prod.snd ≤
      (items.find? fun i => decide (i.1 = 2)).elim s.day.park.openMinute Prod.snd := by
  have opens := readPark_writeItems distinct (n := 2) (by decide) (by decide) (fun _ _ _ _ => rfl) s.day.park
  have closes := readPark_writeItems distinct (n := 3) (by decide) (by decide) (fun _ _ _ _ => rfl) s.day.park
  simp only [readPark] at opens closes
  rw [leavesUnsound, ← opens, ← closes, Bool.not_eq_true', decide_eq_false_iff_not, Nat.not_lt]

theorem leavesUnsound_board (words : ∀ i ∈ items, i.2 < 65536) (b : BoardIx) : leavesUnsound s (.board b) items = true ↔
    (items.find? fun i => decide (i.1 = 1)).elim (look s.boardTable b).address.toNat Prod.snd ≠ 0 ∧
      ((items.find? fun i => decide (i.1 = 3)).elim (look s.boardTable b).rideCount Prod.snd = 0 ∨
        12 < (items.find? fun i => decide (i.1 = 3)).elim (look s.boardTable b).rideCount Prod.snd ∨
        48 < (items.find? fun i => decide (i.1 = 2)).elim (look s.boardTable b).firstRide Prod.snd +
          (items.find? fun i => decide (i.1 = 3)).elim (look s.boardTable b).rideCount Prod.snd) := by
  have address := readBoard_writeItems distinct (n := 1) (by decide) (by decide)
    (fun _ i hi _ => Nat.mod_eq_of_lt (words i hi)) (look s.boardTable b)
  have first := readBoard_writeItems distinct (n := 2) (by decide) (by decide) (fun _ _ _ _ => rfl) (look s.boardTable b)
  have count := readBoard_writeItems distinct (n := 3) (by decide) (by decide) (fun _ _ _ _ => rfl) (look s.boardTable b)
  simp only [readBoard] at address first count
  rw [leavesUnsound, ← address, ← first, ← count]
  rw [Bool.and_eq_true, boardUsed_iff, Bool.not_eq_true', ← Bool.not_eq_true, boardRangeOk_iff]
  simp only [boardEntry]
  omega

end Unsound

/-! ## The judging (R186) -/

section JudgeWrite

variable {s : State} {table index : Nat} {items : List (Nat × Nat)} {t : TableId} {x : Entry}
  (named : tableOf table = some t) (entry : entryAt t index = some x)
include named entry

theorem judgeNames_items : judgeNames table index (items.map Prod.fst) =
    if (∀ i ∈ items, 1 ≤ i.1 ∧ i.1 ≤ lastField t) ∧ (items.map Prod.fst).Nodup then .ok (t, x) else .error .badValue := by
  simp only [judgeNames_of named entry, List.forall_mem_map]

theorem judgeWrite_unnamed (unnamed : ¬((∀ i ∈ items, 1 ≤ i.1 ∧ i.1 ≤ lastField t) ∧ (items.map Prod.fst).Nodup)) :
    judgeWrite s table index items = .error .badValue := by
  rw [judgeWrite, judgeNames_items named entry, if_neg unnamed]

variable (fields : (∀ i ∈ items, 1 ≤ i.1 ∧ i.1 ≤ lastField t) ∧ (items.map Prod.fst).Nodup)
include fields

/-- R186, steps 4 to 7 of a write whose fields are named. -/
theorem judgeWrite_named : judgeWrite s table index items =
    if s.day.phase = .checking then .error .busy
    else if inDay s.day.phase = true ∧ ∃ i ∈ items, structural t i.1 = true then .error .locked
    else if ¬∀ i ∈ items, accepts t i.1 i.2 = true then .error .badValue
    else if inDay s.day.phase = true ∧ leavesUnsound s x items = true then .error .badValue
    else .ok x := by
  rw [judgeWrite, judgeNames_items named entry, if_pos fields]
  simp only [Bool.and_eq_true, List.any_eq_true, ← Bool.not_eq_true, List.all_eq_true]

end JudgeWrite

theorem tableWrite_error {s : State} {table index : Nat} {items : List (Nat × Nat)} {x : MgmtResult} (order : List BoardIx)
    (judged : judgeWrite s table index items = .error x) : tableWrite table index items order s = answered x s := by
  rw [tableWrite, judged]

/-- Settles O24: the tables by their fields, and the judgement step by step. -/
theorem tableWriteJudged : Obligations.TableWriteJudged := by
  unfold Obligations.TableWriteJudged
  refine ⟨⟨rfl, fun n => tableOf_eq_none.2, rfl, rfl, fun n some => if_neg some.ne', fun i => ?_, fun n beyond => ?_,
    fun r => ?_, fun n beyond => ?_, fun i => ?_, fun n beyond => ?_, fun b => ?_, fun n beyond => ?_⟩,
    fun t n _ _ => structural_iff, ⟨accepts_range, fun v => decide_eq_true_iff, fun v => decide_eq_true_iff⟩,
    fun s items distinct words => ⟨leavesUnsound_park distinct, leavesUnsound_board distinct words, fun i => rfl,
      fun r => rfl, fun i => rfl⟩, ?_⟩
  case _ => rw [entryAt, index?_val]; rfl
  case _ => rw [entryAt, index?_beyond beyond]; rfl
  case _ => rw [entryAt, index?_val]; rfl
  case _ => rw [entryAt, index?_beyond beyond]; rfl
  case _ => rw [entryAt, index?_val]; rfl
  case _ => rw [entryAt, index?_beyond beyond]; rfl
  case _ => rw [entryAt, index?_val]; rfl
  case _ => rw [entryAt, index?_beyond beyond]; rfl
  case _ =>
    intro e rest table index items order s head command only answers
    have answer {x : MgmtResult} (judged : judgeWrite s table index items = .error x) : answers x :=
      exec_tableWrite_of_head head order command
        (tableWrite_error (s := { s with mgmtIntake := rest }) order (by rw [← judged]; rfl))
    refine ⟨fun unnamed => answer ?_, fun t named => ⟨fun absent => answer ?_, fun x entry => ?_⟩⟩
    · rw [judgeWrite, judgeNames_noTable (tableOf_eq_none.2 unnamed)]
    · rw [judgeWrite, judgeNames_noEntry named absent]
    · refine ⟨fun no => answer (judgeWrite_unnamed named entry no), fun fields checking => answer ?_,
        fun fields isLocked => answer ?_, fun fields settled free refused => answer ?_,
        fun fields settled free accepts day unsound => answer ?_⟩
      all_goals rw [judgeWrite_named named entry fields]
      · rw [if_pos checking]
      · have settled : s.day.phase ≠ .checking := fun checking => by
          rw [checking] at isLocked
          exact absurd isLocked.1 (by decide)
        rw [if_neg settled, if_pos isLocked]
      · rw [if_neg settled, if_neg free, if_pos refused]
      · rw [if_neg settled, if_neg free, if_neg (not_not_intro accepts), if_pos ⟨day, unsound⟩]

end Sys2Proof.Machine
end

section
/-! PROOFS. The taking of a TABLE_WRITE: the fields it writes (O25), and what it does beside (O26). -/

namespace Sys2Proof.Machine

/-! ## The value a field takes -/

theorem readProfile_writeProfile_same {n v : Nat} (from1 : 1 ≤ n) (to6 : n ≤ 6) (p : Profile) :
    readProfile (writeProfile p n v) n = v := by
  interval_cases n <;> rfl

section SameField

variable {n v : Nat} (word : v < 65536)
include word

theorem readPark_writePark_same (from1 : 1 ≤ n) (to8 : n ≤ 8) (accepted : parkAccepts n v = true) (p : ParkSettings) :
    readPark (writePark p n v) n = v := by
  have words : (BitVec.ofNat 16 v).toNat = v := Nat.mod_eq_of_lt word
  interval_cases n
  · rfl
  · rfl
  · rfl
  · have mode : v ≤ 1 := of_decide_eq_true accepted
    interval_cases v <;> rfl
  · rfl
  · rfl
  · exact words
  · exact words

theorem readReader_writeReader_same (from1 : 1 ≤ n) (to5 : n ≤ 5) (accepted : readerAccepts n v = true) (e : Reader) :
    readReader (writeReader e n v) n = v := by
  interval_cases n
  · exact Nat.mod_eq_of_lt word
  · have ride : v ≤ 47 := of_decide_eq_true accepted
    exact Nat.mod_eq_of_lt (by omega)
  · have role : v ≤ 1 := of_decide_eq_true accepted
    interval_cases v <;> rfl
  · have mode : v ≤ 3 := of_decide_eq_true accepted
    interval_cases v <;> rfl
  · have used : v ≤ 1 := of_decide_eq_true accepted
    interval_cases v <;> rfl

theorem readBoard_writeBoardEntry_same (from1 : 1 ≤ n) (to5 : n ≤ 5) (e : BoardEntry) :
    readBoard (writeBoardEntry e n v) n = v := by
  interval_cases n
  · exact Nat.mod_eq_of_lt word
  all_goals rfl

theorem readRide_writeRide_same (from1 : 1 ≤ n) (to17 : n ≤ 17) (accepted : rideAccepts n v = true)
    (curve : ¬(n = 16 ∧ v ∉ [1, 2, 4, 8])) (night : Bool) (e : RideEntry) : readRide (writeRide night e n v) n = v := by
  by_cases capacity : 5 ≤ n ∧ n ≤ 13
  · rw [readRide_capacity capacity.1 capacity.2, written_writeRide,
      readCapacity_writeCapacity_same capacity.1 capacity.2]
  · have words : (BitVec.ofNat 16 v).toNat = v := Nat.mod_eq_of_lt word
    have number : n = 1 ∨ n = 2 ∨ n = 3 ∨ n = 4 ∨ n = 14 ∨ n = 15 ∨ n = 16 ∨ n = 17 := by omega
    rcases number with rfl | rfl | rfl | rfl | rfl | rfl | rfl | rfl
    · exact words
    · have flag : v ≤ 1 := of_decide_eq_true accepted
      interval_cases v <;> rfl
    · exact words
    · have profile : v ≤ 7 := of_decide_eq_true accepted
      exact Nat.mod_eq_of_lt (by omega)
    · have policy : v ≤ 1 := of_decide_eq_true accepted
      interval_cases v <;> rfl
    · rfl
    · have known : v ∈ [1, 2, 4, 8] := not_not.1 fun unknown => curve ⟨rfl, unknown⟩
      simp only [List.mem_cons, List.not_mem_nil, or_false] at known
      rcases known with rfl | rfl | rfl | rfl <;> rfl
    · have flag : v ≤ 1 := of_decide_eq_true accepted
      interval_cases v <;> rfl

end SameField

theorem curveOf_eq_none {v : Nat} : curveOf v = none ↔ v ∉ [1, 2, 4, 8] := by
  unfold curveOf
  split <;> simp_all

/-- R18: an ignored POSTING_CURVE leaves the curve. -/
theorem postingCurve_ignored {v : Nat} (unknown : v ∉ [1, 2, 4, 8]) (night : Bool) (e : RideEntry) :
    readRide (writeRide night e 16 v) 16 = readRide e 16 := by
  show curveValue ((curveOf v).getD e.postingCurve) = _
  rw [curveOf_eq_none.2 unknown]
  rfl

/-! ## What each table's write changes -/

section Writes

variable {items : List (Nat × Nat)} {s : State}

theorem judgeOpenMinute_eq (s : State) : judgeOpenMinute s =
    if s.day.phase = .preopen ∧ s.day.park.openMinute ≤ minuteNow s then
      { s with day := { s.day with phase := .opened }, out := { s.out with flags := s.out.flags ++ [.phaseChanged] } }
    else s := by
  unfold judgeOpenMinute
  split
  · next opens =>
    rw [setPhase, if_neg (by rw [opens.1]; decide)]
    rfl
  · rfl

theorem judgeLastCallMinute_eq (s : State) : judgeLastCallMinute s =
    if (s.day.phase = .preopen ∨ s.day.phase = .opened) ∧ s.day.park.lastCallMinute ≤ minuteNow s then
      { s with
        day := { s.day with phase := .lastCall }
        out := { s.out with flags := s.out.flags ++ [.phaseChanged], lastCalls := s.out.lastCalls + 1 } }
    else s := by
  unfold judgeLastCallMinute
  split
  · next closes =>
    have notYet : s.day.phase ≠ .lastCall := fun last => by rcases closes.1 with h | h <;> rw [last] at h <;> cases h
    rw [setPhase, if_neg notYet]
    rfl
  · rfl

/-- R13: both minutes are judged, OPEN_MINUTE first. -/
theorem judgeMinutes_eq (s : State) (opens closes : Prop) [Decidable opens] [Decidable closes]
    (o : opens ↔ s.day.phase = .preopen ∧ s.day.park.openMinute ≤ minuteNow s)
    (c : closes ↔ (s.day.phase = .preopen ∨ s.day.phase = .opened) ∧ s.day.park.lastCallMinute ≤ minuteNow s) :
    judgeLastCallMinute (judgeOpenMinute s) = { s with
      day := { s.day with phase := if closes then .lastCall else if opens then .opened else s.day.phase }
      out := { s.out with
        flags := s.out.flags ++ (if opens then [.phaseChanged] else []) ++ (if closes then [.phaseChanged] else [])
        lastCalls := if closes then s.out.lastCalls + 1 else s.out.lastCalls } } := by
  rw [judgeLastCallMinute_eq, judgeOpenMinute_eq]
  by_cases opening : opens
  · rw [if_pos (o.1 opening)]
    have now : minuteNow { s with
        day := { s.day with phase := .opened }, out := { s.out with flags := s.out.flags ++ [.phaseChanged] } } =
          minuteNow s := rfl
    by_cases closing : closes
    · have last : s.day.park.lastCallMinute ≤ minuteNow s := (c.1 closing).2
      simp only [opening, closing, now, last, or_true, and_self, if_true]
    · have last : ¬s.day.park.lastCallMinute ≤ minuteNow s := fun h => closing (c.2 ⟨.inl (o.1 opening).1, h⟩)
      simp only [opening, closing, now, last, and_false, if_false, if_true, List.append_nil]
  · rw [if_neg fun h => opening (o.2 h)]
    by_cases closing : closes
    · rw [if_pos (c.1 closing)]
      simp only [opening, closing, if_false, if_true, List.append_nil]
    · rw [if_neg fun h => closing (c.2 h)]
      simp only [opening, closing, if_false, List.append_nil]

/-- R13: a write of the park settings. -/
theorem takeParkWrite_eq (items : List (Nat × Nat)) (s : State) (opens closes judged : Prop) [Decidable opens]
    [Decidable closes] (j : judged ↔ inDay s.day.phase = true ∧
      ((writeItems writePark items s.day.park).openMinute ≠ s.day.park.openMinute ∨
        (writeItems writePark items s.day.park).lastCallMinute ≠ s.day.park.lastCallMinute))
    (o : opens ↔ judged ∧ s.day.phase = .preopen ∧ (writeItems writePark items s.day.park).openMinute ≤ minuteNow s)
    (c : closes ↔ judged ∧ (s.day.phase = .preopen ∨ s.day.phase = .opened) ∧
      (writeItems writePark items s.day.park).lastCallMinute ≤ minuteNow s) : takeParkWrite items s = { s with
        day := { s.day with
          park := writeItems writePark items s.day.park
          phase := if closes then .lastCall else if opens then .opened else s.day.phase }
        out := { s.out with
          flags := s.out.flags ++ (if opens then [.phaseChanged] else []) ++ (if closes then [.phaseChanged] else [])
          lastCalls := if closes then s.out.lastCalls + 1 else s.out.lastCalls } } := by
  unfold takeParkWrite
  simp only [Bool.and_eq_true, decide_eq_true_eq]
  by_cases judging : judged
  · rw [if_pos (j.1 judging)]
    refine judgeMinutes_eq _ opens closes (o.trans ?_) (c.trans ?_)
    · exact and_iff_right judging
    · exact and_iff_right judging
  · rw [if_neg fun h => judging (j.2 h)]
    have noOpen : ¬opens := fun h => judging (o.1 h).1
    have noClose : ¬closes := fun h => judging (c.1 h).1
    simp only [noOpen, noClose, if_false, List.append_nil]

/-- R21: a changed ENABLED moves the ride between CLOSED and OFF. -/
theorem moveRide_eq (r : Ride) (old new : RideEntry) (s : State) : moveRide r old new s = { s with
    rides := if new.enabled = old.enabled then s.rides
      else put s.rides r { look s.rides r with state := if new.enabled then .closed else .off } } := by
  unfold moveRide
  by_cases same : old.enabled = new.enabled
  · rw [if_pos same, if_pos same.symm]
  · rw [if_neg same, if_neg (Ne.symm same)]
    rfl

/-- R19, R21: a written ride entry before the boards follow. -/
def rideWritten (r : Ride) (items : List (Nat × Nat)) (s : State) : State :=
  let old := look s.rideTable r
  let new := writeItems (writeRide (decide (s.day.phase = .night))) items old
  { s with
    rideTable := put s.rideTable r new
    rides := if new.enabled = old.enabled then s.rides
      else put s.rides r { look s.rides r with state := if new.enabled then .closed else .off } }

theorem takeRideWrite_eq (r : Ride) (items : List (Nat × Nat)) (order : List BoardIx) (s : State) :
    takeRideWrite r items order s = if 1 ∈ items.map Prod.fst then
      boardsChanged order (fun b => inRange (look s.boardTable b) r) (rideWritten r items s) else rideWritten r items s := by
  have label : (items.any fun x => x.1 == 1) = true ↔ 1 ∈ items.map Prod.fst := by
    simp [List.any_eq_true]
  simp only [takeRideWrite, moveRide_eq, label]
  rfl

theorem takeRideWrite_boards (r : Ride) (items : List (Nat × Nat)) (order : List BoardIx) (s : State) :
    BoardsOnly (rideWritten r items s) (takeRideWrite r items order s) := by
  rw [takeRideWrite_eq]
  split
  · exact boardsChanged_frame ..
  · exact BoardsOnly.refl _

/-- R182: a written board entry before the board follows. -/
def boardEntryWritten (b : BoardIx) (items : List (Nat × Nat)) (s : State) : State :=
  { s with boardTable := put s.boardTable b (writeItems writeBoardEntry items (look s.boardTable b)) }

theorem takeBoardWrite_boards (b : BoardIx) (items : List (Nat × Nat)) (s : State) :
    BoardsOnly (boardEntryWritten b items s) (takeBoardWrite b items s) := boardWritten_frame ..

/-! ## The fields after a write (R187) -/

/-- The table of an entry. -/
def tableOfEntry : Entry → TableId
  | .park => .park
  | .profile _ => .profile
  | .ride _ => .ride
  | .reader _ => .reader
  | .board _ => .board

theorem entryAt_tableOfEntry {t : TableId} {index : Nat} {x : Entry} (entry : entryAt t index = some x) :
    t = tableOfEntry x := by
  cases t with
  | park =>
    have zero : (if index = 0 then some Entry.park else none) = some x := entry
    split at zero
    · cases zero
      rfl
    · cases zero
  | profile | ride | reader | board =>
    obtain ⟨i, -, here⟩ := Option.map_eq_some_iff.1 (show Option.map _ (index? _ index) = some x from entry)
    subst here
    rfl

/-- What a write leaves in the tables: the written entry of its table, every other as it was. -/
structure EntryWritten (x : Entry) (items : List (Nat × Nat)) (s u : State) : Prop where
  park : u.day.park = if x = .park then writeItems writePark items s.day.park else s.day.park
  profile : ∀ i, look u.calendar.profiles i = if x = .profile i then
    writeItems writeProfile items (look s.calendar.profiles i) else look s.calendar.profiles i
  ride : ∀ r, look u.rideTable r = if x = .ride r then
    writeItems (writeRide (decide (s.day.phase = .night))) items (look s.rideTable r) else look s.rideTable r
  reader : ∀ i, look u.readers i = if x = .reader i then writeItems writeReader items (look s.readers i)
    else look s.readers i
  board : ∀ b, look u.boardTable b = if x = .board b then writeItems writeBoardEntry items (look s.boardTable b)
    else look s.boardTable b

theorem look_upd_if {n : Nat} {α : Type} (t : Table n α) (i j : Fin n) (f : α → α) (p : Prop) [Decidable p]
    (same : p ↔ i = j) : look (upd t i f) j = if p then f (look t j) else look t j := by
  by_cases here : i = j
  · subst here
    rw [look_upd_same, if_pos (same.2 rfl)]
  · rw [upd, look_put_other t _ here, if_neg fun h => here (same.1 h)]

end Writes

theorem takeWrite_entryWritten (x : Entry) (items : List (Nat × Nat)) (order : List BoardIx) (s : State) :
    EntryWritten x items s (takeWrite x items order s) := by
  cases x with
  | park =>
    rw [takeWrite, takeParkWrite_eq items s _ _ _ Iff.rfl Iff.rfl Iff.rfl]
    exact ⟨(if_pos rfl).symm, fun _ => (if_neg nofun).symm, fun _ => (if_neg nofun).symm, fun _ => (if_neg nofun).symm,
      fun _ => (if_neg nofun).symm⟩
  | profile i =>
    exact ⟨(if_neg nofun).symm, fun j =>
        look_upd_if s.calendar.profiles i j (writeItems writeProfile items) _ ⟨Entry.profile.inj, congrArg _⟩, fun _ => (if_neg nofun).symm,
      fun _ => (if_neg nofun).symm, fun _ => (if_neg nofun).symm⟩
  | reader i =>
    exact ⟨(if_neg nofun).symm, fun _ => (if_neg nofun).symm, fun _ => (if_neg nofun).symm,
      fun j =>
        look_upd_if s.readers i j (writeItems writeReader items) _ ⟨Entry.reader.inj, congrArg _⟩, fun _ => (if_neg nofun).symm⟩
  | ride r =>
    obtain ⟨⟨q, bs, eq⟩, -⟩ := takeRideWrite_boards r items order s
    rw [takeWrite, eq]
    exact ⟨(if_neg nofun).symm, fun _ => (if_neg nofun).symm, fun j =>
        look_upd_if s.rideTable r j (writeItems (writeRide (decide (s.day.phase = .night))) items) _ ⟨Entry.ride.inj, congrArg _⟩,
      fun _ => (if_neg nofun).symm, fun _ => (if_neg nofun).symm⟩
  | board b =>
    obtain ⟨⟨q, bs, eq⟩, -⟩ := takeBoardWrite_boards b items s
    rw [takeWrite, eq]
    exact ⟨(if_neg nofun).symm, fun _ => (if_neg nofun).symm, fun _ => (if_neg nofun).symm, fun _ => (if_neg nofun).symm,
      fun j =>
        look_upd_if s.boardTable b j (writeItems writeBoardEntry items) _ ⟨Entry.board.inj, congrArg _⟩⟩

/-- R18: the item is a POSTING_CURVE that a write ignores. -/
def ignoredItem (t : TableId) (i : Nat × Nat) : Prop := t = .ride ∧ i.1 = 16 ∧ i.2 ∉ [1, 2, 4, 8]

section EntryWritten

variable {x : Entry} {items : List (Nat × Nat)} {s u : State} {n : Nat}

/-- R187: a field of the written entry holds the value named for it, or what it held. -/
theorem EntryWritten.readField_self (written : EntryWritten x items s u) (distinct : (items.map Prod.fst).Nodup)
    (from1 : 1 ≤ n) (toLast : n ≤ lastField (tableOfEntry x)) (good : ∀ i ∈ items, i.1 = n → i.2 < 65536 ∧
      accepts (tableOfEntry x) i.1 i.2 = true ∧ ¬ignoredItem (tableOfEntry x) i) :
    readField u x n = (items.find? fun i => decide (i.1 = n)).elim (readField s x n) Prod.snd := by
  cases x with
  | park =>
    rw [readField, readField, written.park, if_pos rfl]
    refine read_writeItems (readPark · n) n distinct (fun p i hi here => ?_)
      (fun p i _ other => readPark_writePark_other from1 toLast other p i.2) _
    obtain ⟨word, accepted, -⟩ := good i hi here
    subst here
    exact readPark_writePark_same word from1 toLast accepted p
  | profile j =>
    rw [readField, readField, written.profile, if_pos rfl]
    refine read_writeItems (readProfile · n) n distinct (fun p i hi here => ?_)
      (fun p i _ other => readProfile_writeProfile_other from1 toLast other p i.2) _
    subst here
    exact readProfile_writeProfile_same from1 toLast p
  | ride r =>
    rw [readField, readField, rideEntry, rideEntry, written.ride, if_pos rfl]
    refine read_writeItems (readRide · n) n distinct (fun p i hi here => ?_)
      (fun p i _ other => readRide_writeRide_other from1 toLast other _ p i.2) _
    obtain ⟨word, accepted, kept⟩ := good i hi here
    subst here
    exact readRide_writeRide_same word from1 toLast accepted (fun ignored => kept ⟨rfl, ignored⟩) _ p
  | reader j =>
    rw [readField, readField, written.reader, if_pos rfl]
    refine read_writeItems (readReader · n) n distinct (fun p i hi here => ?_)
      (fun p i _ other => readReader_writeReader_other from1 toLast other p i.2) _
    obtain ⟨word, accepted, -⟩ := good i hi here
    subst here
    exact readReader_writeReader_same word from1 toLast accepted p
  | board b =>
    rw [readField, readField, boardEntry, boardEntry, written.board, if_pos rfl]
    refine read_writeItems (readBoard · n) n distinct (fun p i hi here => ?_)
      (fun p i _ other => readBoard_writeBoardEntry_other from1 toLast other p i.2) _
    obtain ⟨word, -, -⟩ := good i hi here
    subst here
    exact readBoard_writeBoardEntry_same word from1 toLast p

/-- R187: no other entry is written. -/
theorem EntryWritten.readField_other (written : EntryWritten x items s u) {y : Entry} (other : y ≠ x) (n : Nat) :
    readField u y n = readField s y n := by
  cases y with
  | park => rw [readField, readField, written.park, if_neg other.symm]
  | profile i => rw [readField, readField, written.profile, if_neg other.symm]
  | ride r => rw [readField, readField, rideEntry, rideEntry, written.ride, if_neg other.symm]
  | reader i => rw [readField, readField, written.reader, if_neg other.symm]
  | board b => rw [readField, readField, boardEntry, boardEntry, written.board, if_neg other.symm]

/-- What every write of a list keeps, the list keeps. -/
theorem read_writeItems_kept {α : Type} {w : α → Nat → Nat → α} {items : List (Nat × Nat)} (read : α → Nat)
    (kept : ∀ e, ∀ i ∈ items, read (w e i.1 i.2) = read e) (e : α) : read (writeItems w items e) = read e := by
  induction items generalizing e with
  | nil => rfl
  | cons i is ih =>
    exact (ih (fun e j hj => kept e j (List.mem_cons_of_mem i hj)) (w e i.1 i.2)).trans (kept e i List.mem_cons_self)

/-- R18: an ignored POSTING_CURVE is not written. -/
theorem EntryWritten.readField_ignored {r : Ride} (written : EntryWritten (.ride r) items s u)
    (ignored : ∀ i ∈ items, i.1 = 16 → i.2 ∉ [1, 2, 4, 8]) : readField u (.ride r) 16 = readField s (.ride r) 16 := by
  rw [readField, readField, rideEntry, rideEntry, written.ride, if_pos rfl]
  refine read_writeItems_kept (readRide · 16) (fun e i hi => ?_) _
  by_cases curve : i.1 = 16
  · rw [curve]
    exact postingCurve_ignored (ignored i hi curve) _ e
  · exact readRide_writeRide_other (by decide) (by decide) curve _ e i.2

end EntryWritten

/-! ## The taken write -/

theorem ignoresCurve_iff {x : Entry} {items : List (Nat × Nat)} : ignoresCurve x items = true ↔
    tableOfEntry x = .ride ∧ ∃ i ∈ items, i.1 = 16 ∧ i.2 ∉ [1, 2, 4, 8] := by
  cases x with
  | ride r =>
    simp only [ignoresCurve, tableOfEntry, true_and, List.any_eq_true, Bool.and_eq_true, beq_iff_eq,
      Option.isNone_iff_eq_none, curveOf_eq_none]
  | park | profile | reader | board => simp [ignoresCurve, tableOfEntry]

section Taken

variable {e : MgmtEntry} {rest : List MgmtEntry} {table index : Nat} {items : List (Nat × Nat)} {s : State} {t : TableId}
  {x : Entry} (head : mgmtHead s e rest) (command : e.command = .tableWrite table index items)
  (named : tableOf table = some t) (entry : entryAt t index = some x)
include head command named entry

/-- R187: a write that passes every step of the judgement is taken. -/
theorem exec_tableWrite_taken (order : List BoardIx) (passes : WritePasses s t x items) :
    exec (.tableWrite order) s = .next (mgmtFinish [mgmtReply e 0x03 { result := .done, ignored := ignoresCurve x items }]
      (takeWrite x items order { s with mgmtIntake := rest })) := by
  obtain ⟨fields, distinct, unchecked, unlocked, accepted, sound⟩ := passes
  have judged : judgeWrite { s with mgmtIntake := rest } table index items = .ok x :=
    judgeWrite_passes named entry ⟨fields, distinct, unchecked, unlocked, accepted, sound⟩
  exact exec_tableWrite_of_head head order command
    (x := ({ result := .done, ignored := ignoresCurve x items }, takeWrite x items order { s with mgmtIntake := rest }))
    (by simp only [tableWrite, judged])

end Taken

/-- What a write may change beside the fields of the tables. -/
theorem takeWrite_frame (x : Entry) (items : List (Nat × Nat)) (order : List BoardIx) (s : State) :
    let u := takeWrite x items order s
    u = { s with
      day := { s.day with park := u.day.park, phase := u.day.phase }
      rideTable := u.rideTable
      rides := u.rides
      calendar := { s.calendar with profiles := u.calendar.profiles }
      readers := u.readers
      boardTable := u.boardTable
      boards := u.boards
      fieldPort := { s.fieldPort with partQueue := u.fieldPort.partQueue }
      out := { s.out with flags := u.out.flags, lastCalls := u.out.lastCalls } } := by
  cases x with
  | park =>
    rw [takeWrite, takeParkWrite_eq items s _ _ _ Iff.rfl Iff.rfl Iff.rfl]
  | profile i => exact rfl
  | reader i => exact rfl
  | ride r =>
    obtain ⟨⟨q, bs, eq⟩, -⟩ := takeRideWrite_boards r items order s
    rw [takeWrite, eq]
    intro u
    rfl
  | board b =>
    obtain ⟨⟨q, bs, eq⟩, -⟩ := takeBoardWrite_boards b items s
    rw [takeWrite, eq]
    intro u
    rfl

/-- Settles O25: the entry is written field by field. -/
theorem tableWriteTaken : Obligations.TableWriteTaken := by
  unfold Obligations.TableWriteTaken
  intro e rest table index items order s t x head command named entry fields distinct unchecked unlocked accepted sound
  have ofTable := entryAt_tableOfEntry entry
  have passes : WritePasses s t x items :=
    ⟨fun i hi => ⟨(fields i hi).1, (fields i hi).2.1⟩, distinct, unchecked, unlocked, accepted, sound⟩
  have written := takeWrite_entryWritten x items order { s with mgmtIntake := rest }
  have same (y : Entry) (n : Nat) : readField { s with mgmtIntake := rest } y n = readField s y n := by cases y <;> rfl
  have reply : ignoresCurve x items = decide (t = .ride ∧ ∃ i ∈ items, i.1 = 16 ∧ i.2 ∉ [1, 2, 4, 8]) := by
    rw [Bool.eq_iff_iff, ignoresCurve_iff, decide_eq_true_iff, ofTable]
  subst ofTable
  refine ⟨takeWrite x items order { s with mgmtIntake := rest }, ?_, fun i hi kept => ?_, fun n from1 toLast absent => ?_,
    fun n ride sixteen ignored => ?_, fun y other n => ?_, takeWrite_frame x items order { s with mgmtIntake := rest }⟩
  · rw [exec_tableWrite_taken head command named entry order passes, reply]
  · rw [written.readField_self distinct (fields i hi).1 (fields i hi).2.1 fun j hj here => ?_, find?_of_mem distinct hi]
    · rfl
    · have only : j = i := by
        have found := find?_of_mem distinct hj
        rw [here, find?_of_mem distinct hi] at found
        exact (Option.some.inj found).symm
      subst only
      exact ⟨(fields j hj).2.2, accepted j hj, kept⟩
  · rw [written.readField_self distinct from1 toLast
      (fun j hj here => absurd (here ▸ List.mem_map_of_mem hj) absent), find?_of_absent absent]
    exact same x n
  · subst sixteen
    cases x with
    | ride r => exact (written.readField_ignored ignored).trans (same _ _)
    | park | profile | reader | board => cases ride
  · exact (written.readField_other other n).trans (same y n)

/-! ## What a taken write does beside (R13, R19, R21, R182) -/

theorem written_writeItems (night : Bool) (items : List (Nat × Nat)) (e : RideEntry) :
    (writeItems (writeRide night) items e).written = writeItems writeCapacity items e.written := by
  induction items generalizing e with
  | nil => rfl
  | cons i is ih => exact (ih _).trans (congrArg _ (written_writeRide night e i.1 i.2))

theorem inEffect_writeItems_night (items : List (Nat × Nat)) (e : RideEntry) :
    (writeItems (writeRide true) items e).inEffect = writeItems writeCapacity items e.inEffect := by
  induction items generalizing e with
  | nil => rfl
  | cons i is ih => exact (ih _).trans (congrArg _ (inEffect_writeRide true e i.1 i.2))

theorem inEffect_writeItems_day (items : List (Nat × Nat)) (e : RideEntry) :
    (writeItems (writeRide false) items e).inEffect = e.inEffect := by
  induction items generalizing e with
  | nil => rfl
  | cons i is ih => exact (ih _).trans (inEffect_writeRide false e i.1 i.2)

/-- R19: the capacity fields after a write, each the value named for it or the old one. -/
theorem writeItems_writeCapacity {items : List (Nat × Nat)} (distinct : (items.map Prod.fst).Nodup) (c : CapacityFields) :
    let named (n v : Nat) : Nat := (items.find? fun i => decide (i.1 = n)).elim v Prod.snd
    writeItems writeCapacity items c = ⟨named 5 c.hourlyCapacity, named 6 c.passShare, named 7 c.reserveShare,
      named 8 c.overbookCap, named 9 c.throttleStep, named 10 c.derateFloor, named 11 c.throughputThreshold,
      named 12 c.noshowThreshold, named 13 c.mergeloadThreshold⟩ := by
  intro named
  have field (n : Nat) (from5 : 5 ≤ n) (to13 : n ≤ 13) :
      readCapacity (writeItems writeCapacity items c) n = named n (readCapacity c n) :=
    read_writeItems (readCapacity · n) n distinct
      (fun c i _ here => by subst here; exact readCapacity_writeCapacity_same from5 to13 c i.2)
      (fun c i _ other => readCapacity_writeCapacity_other from5 to13 other c i.2) c
  have f5 := field 5 (by decide) (by decide)
  have f6 := field 6 (by decide) (by decide)
  have f7 := field 7 (by decide) (by decide)
  have f8 := field 8 (by decide) (by decide)
  have f9 := field 9 (by decide) (by decide)
  have f10 := field 10 (by decide) (by decide)
  have f11 := field 11 (by decide) (by decide)
  have f12 := field 12 (by decide) (by decide)
  have f13 := field 13 (by decide) (by decide)
  simp only [readCapacity] at f5 f6 f7 f8 f9 f10 f11 f12 f13
  rw [← f5, ← f6, ← f7, ← f8, ← f9, ← f10, ← f11, ← f12, ← f13]

section FrameDue

variable {b : BoardIx} {c : BoardContent} {s : State} (used : (look s.boardTable b).address ≠ 0)

theorem frameDue_deferred (deferred : (look s.boards b).deferred = true) : frameDue b c s = s := by
  rw [frameDue, boardOf, deferred, Bool.not_true, Bool.and_false]
  rfl

include used

theorem frameDue_due (due : (look s.boards b).deferred = false) : frameDue b c s =
    if spacingAllows (look s.boards b) then writeBoard b c s else changeBoard b (fun x => { x with pending := true }) s := by
  have isUsed : boardUsed (boardEntry s b) = true := bne_iff_ne.2 used
  rw [frameDue, isUsed, boardOf, due]
  rfl

end FrameDue

section BoardWritten

variable {b : BoardIx} {old : BoardEntry} {s : State}

theorem boardWritten_unused (gone : (look s.boardTable b).address = 0) (was : old.address = 0) : boardWritten b old s = s := by
  simp only [boardWritten, boardEntry, gone, was, if_true]

theorem boardWritten_removed (gone : (look s.boardTable b).address = 0) (was : old.address ≠ 0) :
    boardWritten b old s = changeBoard b (fun x => { x with pending := false, deferred := false }) s := by
  simp only [boardWritten, boardEntry, gone, was, if_true, if_false]

theorem boardWritten_moved (used : (look s.boardTable b).address ≠ 0) (moved : (look s.boardTable b).address ≠ old.address) :
    boardWritten b old s = frameDue b (modeContent s b) s :=
  (if_neg used).trans (if_pos moved)

theorem boardWritten_kept (used : (look s.boardTable b).address ≠ 0) (same : (look s.boardTable b).address = old.address) :
    boardWritten b old s = boardChanged b s := (if_neg used).trans (if_neg (not_not_intro same))

end BoardWritten

/-- Settles O26: the write acts by its table, and the written entry is what the tables then hold. -/
theorem tableWriteActs : Obligations.TableWriteActs := by
  unfold Obligations.TableWriteActs
  intro e rest table index items order s t x head command named entry fields distinct unchecked unlocked accepted sound
  obtain ⟨u, taken⟩ : ∃ u, u = takeWrite x items order { s with mgmtIntake := rest } := ⟨_, rfl⟩
  have written : EntryWritten x items s u := by
    rw [taken]
    obtain ⟨park, profile, ride, reader, board⟩ := takeWrite_entryWritten x items order { s with mgmtIntake := rest }
    exact ⟨park, profile, ride, reader, board⟩
  refine ⟨u, { result := .done, ignored := ignoresCurve x items }, ?_, ?_⟩
  · rw [taken]
    exact exec_tableWrite_taken head command named entry order ⟨fields, distinct, unchecked, unlocked, accepted, sound⟩
  intro s1
  refine ⟨?park, ?profile, ?reader, ?ride, ?board⟩
  case park =>
    rintro rfl
    have park : u.day.park = writeItems writePark items s.day.park := written.park.trans (if_pos rfl)
    simp only [park]
    rw [taken]
    exact takeParkWrite_eq items s1 _ _ _ Iff.rfl Iff.rfl Iff.rfl
  case profile =>
    rintro i rfl
    rw [(written.profile i).trans (if_pos rfl), taken]
    rfl
  case reader =>
    rintro i rfl
    rw [(written.reader i).trans (if_pos rfl), taken]
    rfl
  case ride =>
    rintro r rfl
    have ride : look u.rideTable r = writeItems (writeRide (decide (s.day.phase = .night))) items (look s.rideTable r) :=
      (written.ride r).trans (if_pos rfl)
    simp only [ride]
    refine ⟨fun day => ?_, fun atNight agree => ?_, fun atNight => ?_, fun kept => ?_, fun label => ?_⟩
    · have notNight : s.day.phase ≠ .night := fun h => by rw [h] at day; cases day
      rw [decide_eq_false notNight, inEffect_writeItems_day]
    · rw [decide_eq_true atNight, inEffect_writeItems_night, written_writeItems, agree]
    · rw [decide_eq_true atNight, inEffect_writeItems_night]
      exact writeItems_writeCapacity distinct _
    · rw [taken, takeWrite, takeRideWrite_eq, if_neg kept]
      rfl
    · rw [taken, takeWrite, takeRideWrite_eq, if_pos label]
      rfl
  case board =>
    rintro b rfl
    let s2 := boardEntryWritten b items s1
    have holds : look s2.boardTable b = look u.boardTable b :=
      (look_put_same ..).trans ((written.board b).trans (if_pos rfl)).symm
    have entryKept : put s.boardTable b (look u.boardTable b) = s2.boardTable := by
      rw [(written.board b).trans (if_pos rfl)]
      rfl
    have acts : u = boardWritten b (look s.boardTable b) s2 := taken
    simp only [entryKept]
    rw [← holds]
    have allowed : spacingAllows (look s2.boards b) = true ↔
      (look s.boards b).spacing = none ∨ ∃ n, (look s.boards b).spacing = some n ∧ 2 ≤ n := spacingAllows_iff
    refine ⟨fun gone was => ?_, fun gone was => ?_, fun used same => ?_, fun used moved => ⟨fun deferred => ?_,
      fun due wait => ?_, fun due free full => ?_, fun due free room => ?_⟩⟩
    all_goals rw [acts]
    · rw [boardWritten_unused gone was]
      rfl
    · rw [boardWritten_removed gone was]
      rfl
    · rw [boardWritten_kept used same]
      rfl
    · rw [boardWritten_moved used moved, frameDue_deferred (by exact deferred)]
      rfl
    · rw [boardWritten_moved used moved, frameDue_due used (by exact due), if_neg fun allows => wait (allowed.1 allows)]
      rfl
    · rw [boardWritten_moved used moved, frameDue_due used (by exact due), if_pos (allowed.2 free),
        writeBoard_full (s := s2) full]
      rfl
    · rw [boardWritten_moved used moved, frameDue_due used (by exact due), if_pos (allowed.2 free),
        writeBoard_room (s := s2) room]
      rfl

end Sys2Proof.Machine
end

section
/-! PROOFS. The day and the clock by command: DAY_OPEN and PHASE_SET (O27), DAY_CLOSE (O28), CLOCK_SET and CLOCK_TRIM (O29), and
the notices (O30). -/

namespace Sys2Proof.Machine

/-! ## A change of phase (R1) -/

theorem setPhase_present {p : Phase} {s : State} (present : s.day.phase = p) : setPhase p s = s := if_pos present

theorem setPhase_enters {p : Phase} {s : State} (other : s.day.phase ≠ p) (notLast : p ≠ .lastCall) :
    setPhase p s = flagged { s with day := { s.day with phase := p } } [.phaseChanged] := by
  rw [setPhase, if_neg other]
  exact if_neg notLast

theorem setPhase_lastCall {s : State} (other : s.day.phase ≠ .lastCall) : setPhase .lastCall s =
    flagged { s with
      day := { s.day with phase := .lastCall }
      out := { s.out with lastCalls := s.out.lastCalls + 1 } } [.phaseChanged] := by
  rw [setPhase, if_neg other]
  rfl

/-! ## DAY_OPEN and PHASE_SET (R7, R12) -/

section DayOpen

variable {s : State}

theorem dayOpen_refused (phase : s.day.phase ≠ .night) : dayOpen s = answered .refusedPhase s := if_pos phase

theorem dayOpen_unset (night : s.day.phase = .night) (unset : s.day.clock = none) : dayOpen s = answered .clockUnset s :=
  (if_neg (not_not_intro night)).trans (if_pos unset)

theorem dayOpen_accepted (night : s.day.phase = .night) (set : s.day.clock.isSome = true) : dayOpen s =
    answered .accepted (flagged { s with
      day := { s.day with phase := .checking, check := {} }
      management := { s.management with counts := filled 48 {} } } [.phaseChanged]) := by
  have isSet : s.day.clock ≠ none := fun unset => by rw [unset] at set; cases set
  rw [dayOpen, if_neg (not_not_intro night), if_neg isSet, setPhase_enters (by rw [night]; decide) (by decide)]
  rfl

end DayOpen

section PhaseSet

variable {code : Nat} {s : State}

theorem phaseOf_eq_none : phaseOf code = none ↔ code ∉ [1, 2, 3, 4, 5] := by
  unfold phaseOf
  split <;> simp_all

theorem phaseOf_phaseCode (p : Phase) : phaseOf (phaseCode p) = some p := by
  cases p <;> rfl

theorem phaseSet_badValue (unknown : code ∉ [1, 2, 3, 4, 5]) : phaseSet code s = answered .badValue s := by
  rw [phaseSet, phaseOf_eq_none.2 unknown]

/-- R12: a target phase outside the day and in it. -/
theorem phaseSet_phaseCode (p : Phase) : phaseSet (phaseCode p) s =
    if inDay s.day.phase = false then answered .refusedPhase s
    else if phaseCode p < phaseCode s.day.phase then answered .refusedPhase s
    else answered .done (setPhase p s) := by
  rw [phaseSet, phaseOf_phaseCode]

theorem phaseSet_night (known : code ∈ [1, 2, 3, 4, 5]) (shut : s.day.phase = .night ∨ s.day.phase = .checking) :
    phaseSet code s = answered .refusedPhase s := by
  have notDay : inDay s.day.phase = false := by rcases shut with h | h <;> rw [h] <;> rfl
  cases target : phaseOf code with
  | none => exact absurd known (phaseOf_eq_none.1 target)
  | some p => simp only [phaseSet, target, notDay, if_true]

variable {p : Phase} (day : inDay s.day.phase = true)
include day

theorem phaseSet_earlier (earlier : phaseCode p < phaseCode s.day.phase) :
    phaseSet (phaseCode p) s = answered .refusedPhase s := by
  rw [phaseSet_phaseCode, if_neg (by rw [day]; decide), if_pos earlier]

theorem phaseSet_reached (reached : phaseCode s.day.phase ≤ phaseCode p) :
    phaseSet (phaseCode p) s = answered .done (setPhase p s) := by
  rw [phaseSet_phaseCode, if_neg (by rw [day]; decide), if_neg (Nat.not_lt.2 reached)]

end PhaseSet

/-- Settles O27: DAY_OPEN by the phase and the clock, PHASE_SET by the target and the phase. -/
theorem dayOpenAndPhaseSet : Obligations.DayOpenAndPhaseSet := by
  unfold Obligations.DayOpenAndPhaseSet
  refine ⟨fun e rest s head command => ?_, fun e rest code s head command => ?_⟩
  · intro s1 answers
    exact ⟨fun phase => exec_dayOpen_of_head head command (dayOpen_refused (s := s1) phase),
      fun night unset => exec_dayOpen_of_head head command (dayOpen_unset (s := s1) night unset),
      fun night set => exec_dayOpen_of_head head command (dayOpen_accepted (s := s1) night set)⟩
  · intro s1 answers
    have answer {x : Answer × State} (acts : phaseSet code s1 = x) :
        exec .phaseSet s = .next (mgmtFinish [mgmtReply e 0x05 x.1] x.2) := exec_phaseSet_of_head head command acts
    refine ⟨fun unknown => answer (phaseSet_badValue unknown), fun known shut => answer (phaseSet_night (s := s1) known shut),
      fun phase => ?_, fun phase => ?_, fun phase => ?_⟩
    all_goals
      have phase1 : s1.day.phase = _ := phase
      have day : inDay s1.day.phase = true := by rw [phase1]; rfl
      have earlier (p : Phase) (lt : phaseCode p < phaseCode s1.day.phase) (target : code = phaseCode p) :
          answers .refusedPhase s1 :=
        answer (x := answered .refusedPhase s1) (by rw [target]; exact phaseSet_earlier day lt)
      have reached (p : Phase) (le : phaseCode s1.day.phase ≤ phaseCode p) (target : code = phaseCode p) :
          answers .done (setPhase p s1) :=
        answer (x := answered .done (setPhase p s1)) (by rw [target]; exact phaseSet_reached day le)
      rw [phase1] at earlier reached
    · refine ⟨fun target => ?_, fun target => ?_, fun target => ?_, fun target => ?_⟩
      · exact target.elim (earlier .night (by decide)) (earlier .checking (by decide))
      · rw [← setPhase_present (s := s1) phase]
        exact reached .preopen (by decide) target
      · exact setPhase_enters (p := .opened) (s := s1) (by rw [phase1]; decide) (by decide) ▸ reached .opened (by decide) target
      · exact setPhase_lastCall (s := s1) (by rw [phase1]; decide) ▸ reached .lastCall (by decide) target
    · refine ⟨fun target => ?_, fun target => ?_, fun target => ?_⟩
      · exact target.elim (earlier .night (by decide))
          fun target => target.elim (earlier .checking (by decide)) (earlier .preopen (by decide))
      · rw [← setPhase_present (s := s1) phase]
        exact reached .opened (by decide) target
      · exact setPhase_lastCall (s := s1) (by rw [phase1]; decide) ▸ reached .lastCall (by decide) target
    · refine ⟨fun target => ?_, fun target => ?_⟩
      · exact target.elim (earlier .night (by decide)) fun target => target.elim (earlier .checking (by decide))
          fun target => target.elim (earlier .preopen (by decide)) (earlier .opened (by decide))
      · rw [← setPhase_present (s := s1) phase]
        exact reached .lastCall (by decide) target

/-! ## DAY_CLOSE (R11, R14) -/

section DayClose

variable {s : State}

theorem dayClose_night (night : s.day.phase = .night) : dayClose s = answered .done s := by
  rw [dayClose, night]

theorem dayClose_checking (checking : s.day.phase = .checking) : dayClose s = answered .done (flagged { s with
    day := { s.day with phase := .night, check := { s.day.check with outcome := .aborted } } } [.phaseChanged]) := by
  rw [dayClose, checking]
  refine congrArg _ (setPhase_enters (s := { s with
    day := { s.day with check := { s.day.check with outcome := .aborted } } }) ?_ (by decide))
  rw [checking]
  decide

theorem dayClose_day (day : inDay s.day.phase = true) : dayClose s = answered .done (closeDay s) := by
  cases phase : s.day.phase with
  | night | checking =>
    rw [phase] at day
    cases day
  | preopen | opened | lastCall => rw [dayClose, phase]

end DayClose

/-- Settles O28: by the phase; a day is closed by the day-close action. -/
theorem exec_dayClose : Obligations.DayClose := by
  unfold Obligations.DayClose
  intro e rest s head command s1 done
  exact ⟨fun night => exec_dayClose_of_head head command (dayClose_night (s := s1) night),
    fun checking => exec_dayClose_of_head head command (dayClose_checking (s := s1) checking),
    fun day => ⟨closeDay s1, exec_dayClose_of_head head command (dayClose_day (s := s1) day),
      closeDay_dayClosed (s := s1) day⟩⟩

/-! ## CLOCK_SET and CLOCK_TRIM (R3 to R5) -/

section ClockSet

variable {h m sec : Nat} {s : State}

theorem clockSet_badValue (bad : 23 < h ∨ 59 < m ∨ 59 < sec) : clockSet h m sec s = answered .badValue s := if_pos bad

/-- R3: a time of day is judged by the phase. -/
theorem clockSet_good (hours : h ≤ 23) (minutes : m ≤ 59) (seconds : sec ≤ 59) : clockSet h m sec s =
    if s.day.phase = .checking then answered .busy s
    else if inDay s.day.phase = true then answered .refusedPhase s
    else answered .done (setClock (h * 3600 + m * 60 + sec) s) := if_neg (by omega)

end ClockSet

section ClockTrim

variable {n : Int} {orders : List (List Boundary)} {s : State}

theorem clockTrim_badValue (bad : n = 0 ∨ n < -59 ∨ 59 < n) : clockTrim n orders s = answered .badValue s := if_pos bad

/-- R4: a trim in range is judged by the phase and the clock. -/
theorem clockTrim_good (some : n ≠ 0) (atLeast : -59 ≤ n) (atMost : n ≤ 59) : clockTrim n orders s =
    if s.day.phase = .checking then answered .busy s
    else if s.day.clock = none then answered .clockUnset s
    else answered .done (trimClock n orders s) := if_neg (by omega)

theorem trimClock_back {t0 : Nat} (back : n < 0) (clock : s.day.clock = some t0) : trimClock n orders s =
    { settle [] s with day := { (settle [] s).day with clock := some ((t0 + 86400 - n.natAbs) % 86400) } } := by
  have seconds : (-n).toNat = n.natAbs := by omega
  have kept : (settle [] s).day.clock = some t0 := (settle_keeps [] s).2.1.trans clock
  rw [trimClock, if_neg (by omega), setBack, kept, seconds]
  rfl

theorem trimClock_forward (forward : 0 < n) : trimClock n orders s = passSeconds n.natAbs orders (settle [] s) := by
  have seconds : n.toNat = n.natAbs := by omega
  rw [trimClock, if_pos (by omega), seconds]

end ClockTrim

/-- R4: the clock after some seconds, whatever it stood at. -/
theorem passSeconds_clock_succ (n : Nat) (orders : List (List Boundary)) {s : State} {t : Nat} (clock : s.day.clock = some t) :
    (passSeconds (n + 1) orders s).day.clock = some ((t + (n + 1)) % 86400) := by
  have first : (settle (orders.headD []) (tick s)).day.clock = some ((t + 1) % 86400) :=
    (settle_keeps ..).2.1.trans (tick_clock clock)
  rw [passSeconds, passSeconds_clock n orders.tail first (Nat.mod_lt _ (by decide))]
  congr 1
  omega

/-! ## The boundaries of a second, each by its own command -/

theorem expireHeld_resetLow (s : State) : (expireHeld s).resetLow = s.resetLow := by
  obtain ⟨a, b, e, eq⟩ := expireHeld_frame s
  rw [eq]

/-- R80, R89: one HOLD_EXPIRY. -/
theorem exec_holdExpiry {s : State} (high : s.resetLow = false) :
    exec .holdExpiry s = .next (if engineWaits s then s else expireHeld s) := by
  show execHoldExpiry s = _
  rw [execHoldExpiry, event_taken _ high]

/-- R80, R89: the due expiries of the held list are taken by as many HOLD_EXPIRY commands as it has places. -/
theorem runs_holdExpiry (n : Nat) {s : State} (high : s.resetLow = false) :
    runs (List.replicate n .holdExpiry) s (expireAllHeld n s) := by
  induction n generalizing s with
  | zero => rfl
  | succ n ih =>
    refine ⟨_, exec_holdExpiry high, ?_⟩
    rw [expireAllHeld]
    by_cases waits : engineWaits s = true
    · rw [if_pos waits, if_pos waits]
      have stays : expireAllHeld n s = s := by
        cases n with
        | zero => rfl
        | succ n => rw [expireAllHeld, if_pos waits]
      simpa only [stays] using ih high
    · rw [if_neg waits, if_neg waits]
      exact ih ((expireHeld_resetLow s).trans high)

/-- R2: a due boundary is taken as its command takes it. -/
theorem boundaryTaken_takeDue {b : Boundary} {s : State} (due : boundaryDue s b) : boundaryTaken b s (takeDue b s) := by
  have taken : event (takeDue b) s = .next (takeDue b s) := event_taken _ due.1
  unfold boundaryTaken
  split
  · next isHold =>
    subst isHold
    rw [takeDue_due due.2]
    exact runs_holdExpiry 8 (s := withoutDue s .holdExpiry) due.1
  · next other =>
    cases b with
    | holdExpiry => exact absurd rfl other
    | openMinute | lastCall | earlyRedemption | windowEnd | closing | historyRotation | postingTick | gapExpiry | spacingEnd
      | refresh => exact taken

/-- Settles O29: both commands by their ranges, the phase and the clock; a trim forward is the clock's running. -/
theorem clockSetAndTrim : Obligations.ClockSetAndTrim := by
  unfold Obligations.ClockSetAndTrim
  refine ⟨fun e rest s head => ?_, ?_, fun orders s => rfl, fun order s => (settle_keeps order s).2.2,
    fun s none order => settle_nil order none, fun order s => (settle_keeps order s).2.1, fun s high => ?_⟩
  · intro s1
    refine ⟨fun h m sec command => ?_, fun n orders command => ?_⟩
    · intro answers
      have answer {x : Answer × State} (acts : clockSet h m sec s1 = x) :
          exec .clockSet s = .next (mgmtFinish [mgmtReply e 0x07 x.1] x.2) := exec_clockSet_of_head head command acts
      refine ⟨fun bad => answer (clockSet_badValue bad), fun hours minutes seconds => ?_⟩
      have good := clockSet_good (s := s1) hours minutes seconds
      refine ⟨fun checking => answer (good.trans (if_pos checking)), fun day => ?_, fun night => ?_⟩
      · have unchecked : s1.day.phase ≠ .checking := fun checking => by
          have contra : inDay s1.day.phase = true := day
          rw [checking] at contra
          cases contra
        exact answer (good.trans ((if_neg unchecked).trans (if_pos day)))
      · have phase : s1.day.phase = .night := night
        have set : clockSet h m sec s1 = answered .done (setClock (h * 3600 + m * 60 + sec) s1) :=
          good.trans ((if_neg (by rw [phase]; decide)).trans (if_neg (by rw [phase]; decide)))
        have sets := answer set
        refine ⟨fun settled => ?_, sets, setClock (h * 3600 + m * 60 + sec) s1, sets, rfl, (settle_keeps [] s1).2.2⟩
        rw [setClock, settle_nil [] (s := s1) settled] at sets
        exact sets
    · intro answers
      have answer {x : Answer × State} (acts : clockTrim n orders s1 = x) :
          exec (.clockTrim orders) s = .next (mgmtFinish [mgmtReply e 0x08 x.1] x.2) :=
        exec_clockTrim_of_head head orders command acts
      refine ⟨fun bad => answer (clockTrim_badValue bad), fun some atLeast atMost => ?_⟩
      have good := clockTrim_good (orders := orders) (s := s1) some atLeast atMost
      refine ⟨fun checking => answer (good.trans (if_pos checking)),
        fun unchecked unset => answer (good.trans ((if_neg unchecked).trans (if_pos unset))), fun t0 unchecked clock => ?_⟩
      have trims : clockTrim n orders s1 = answered .done (trimClock n orders s1) := good.trans
        ((if_neg unchecked).trans (if_neg fun unset => by
          have set : s1.day.clock = .some t0 := clock
          rw [set] at unset
          cases unset))
      refine ⟨fun back settled => ?_, fun back => ?_, fun forward => ?_⟩
      · have sets := answer trims
        rw [trimClock_back (s := s1) back clock, settle_nil [] (s := s1) settled] at sets
        exact sets
      · exact trimClock_back (s := s1) (orders := orders) back clock ▸ answer trims
      · obtain ⟨k, seconds⟩ : ∃ k, n.natAbs = k + 1 := ⟨n.natAbs - 1, by omega⟩
        refine ⟨trimClock_forward (s := s1) (orders := orders) forward ▸ answer trims, ?_,
          passSeconds_due _ orders (settle_keeps [] s1).2.2⟩
        rw [seconds]
        exact passSeconds_clock_succ k orders ((settle_keeps [] s1).2.1.trans clock)
  · intro n orders s t high settled set answer
    obtain ⟨m, clock⟩ := Option.isSome_iff_exists.1 set
    rw [exec_clockAdvance_of_clock high clock settled] at answer
    have ticks : tick s = t := by
      rw [tick, clock]
      exact Host.Outcome.next.inj answer
    rw [passSeconds, ticks]
  · refine ⟨fun b order absent => ?_, fun b order due => ?_, fun b bs due => ?_⟩
    · rw [settle_cons, takeDue_absent absent]
    · exact ⟨takeDue b s, boundaryTaken_takeDue ⟨high, due⟩, settle_cons ..⟩
    · exact ⟨takeDue b s, boundaryTaken_takeDue ⟨high, by rw [due]; exact List.mem_cons_self⟩, settle_first due⟩

/-! ## The notices (R190 to R193) -/

theorem flagsOfWord_within {w : BitVec 16} (within : w.toNat < 4096) : flagsOfWord w = some (w.setWidth 12) := if_pos within

theorem flagsOfWord_beyond {w : BitVec 16} (beyond : 4096 ≤ w.toNat) : flagsOfWord w = none := if_neg (Nat.not_lt.2 beyond)

/-- R190: two sets of flags have a flag in common. -/
theorem and_ne_zero_iff {a b : FlagSet} : a &&& b ≠ 0 ↔ ∃ i, a.getLsbD i = true ∧ b.getLsbD i = true := by
  constructor
  · intro common
    by_contra none
    refine common (BitVec.eq_of_getLsbD_eq fun i _ => ?_)
    rw [BitVec.getLsbD_and]
    cases set : a.getLsbD i && b.getLsbD i with
    | false => simp
    | true => exact absurd ⟨i, by simpa using set⟩ none
  · rintro ⟨i, inA, inB⟩ zero
    have bit : (a &&& b).getLsbD i = true := by rw [BitVec.getLsbD_and, inA, inB]; rfl
    rw [zero] at bit
    simp at bit

theorem noticeDue_iff {s : State} : noticeDue s = true ↔ s.management.hold = false ∧ s.day.park.noticeTarget ≠ 0 ∧
    ∃ i, s.management.flags.getLsbD i = true ∧ s.day.enableSet.getLsbD i = true := by
  rw [noticeDue, Bool.and_eq_true, Bool.and_eq_true, Bool.not_eq_true', bne_iff_ne, bne_iff_ne, and_ne_zero_iff, and_assoc]

/-- R190: a hand-off of a flag that is not outstanding is none. -/
theorem takeFlag_absent {f : Flag} {s : State} (absent : f ∉ s.out.flags) : takeFlag f s = s :=
  if_neg (by simpa using absent)

theorem takeFlag_handed {f : Flag} {s : State} (handed : f ∈ s.out.flags) : takeFlag f s = mgmtFinish [] { s with
    out := { s.out with flags := s.out.flags.erase f }
    management := { s.management with flags := s.management.flags ||| ((1 : FlagSet) <<< flagBit f) } } :=
  if_pos (by simpa using handed)

/-- Settles O30: the settings, the hand-offs, and the NOTICE made at the end of an event. -/
theorem notices : Obligations.Notices := by
  unfold Obligations.Notices
  refine ⟨fun e rest flags s head => ?_, ⟨fun f s high => ⟨fun absent => ?_, fun handed => ?_⟩, fun fs s =>
    ⟨fun free target common => ?_, fun none => ?_⟩⟩, rfl⟩
  · intro s1
    refine ⟨fun target command => ⟨fun beyond => ?_, fun within => ?_⟩, fun command => ⟨fun beyond => ?_, fun within => ?_⟩⟩
    · exact exec_noticeSet_of_head head command (x := answered .badValue s1) (by rw [noticeSet, flagsOfWord_beyond beyond])
    · refine (exec_noticeSet_of_head head command rfl).trans ?_
      rw [noticeSet, flagsOfWord_within within]
      rfl
    · exact exec_noticeClear_of_head head command (x := answered .badValue s1)
        (by rw [noticeClear, flagsOfWord_beyond beyond])
    · refine (exec_noticeClear_of_head head command rfl).trans ?_
      rw [noticeClear, flagsOfWord_within within]
      rfl
  · exact (event_taken _ high).trans (congrArg _ (takeFlag_absent absent))
  · exact (event_taken _ high).trans (congrArg _ (takeFlag_handed handed))
  · exact if_pos (noticeDue_iff.2 ⟨free, target, common⟩)
  · refine if_neg fun due => ?_
    obtain ⟨free, target, i, set, enabled⟩ := noticeDue_iff.1 due
    rcases none with hold | untargeted | disjoint
    · rw [free] at hold
      cases hold
    · exact target untargeted
    · rw [disjoint i set] at enabled
      cases enabled

end Sys2Proof.Machine
end

section
/-! PROOFS. The opening check: its completion (O31) and the faults it finds (O32). -/

namespace Sys2Proof.Machine

/-! ## The completion (R10) -/

/-- R40: with no derate, overbook and throttle the capacity is the base. -/
theorem windowCapacity_plain (f : CapacityFields) (length : Nat) :
    windowCapacity f length 100 0 0 = min 400 (f.hourlyCapacity * length * f.passShare / 6000) := by
  simp only [windowCapacity, baseCapacity, Config.capacityMax, Nat.sub_zero]
  congr 1
  omega

theorem openingPhase_ne_checking (p : ParkSettings) (minute : Nat) : openingPhase p minute ≠ .checking := fun same => by
  have day := openingPhase_inDay p minute
  rw [same] at day
  cases day

/-- R10: the day that a passed check leaves. -/
def openedDay (s : State) : State :=
  let now := minuteNow s
  let phase := openingPhase s.day.park now
  let tallies := restingTallies now (tmap bringIntoEffect s.rideTable)
  { s with
    day := { s.day with check := { outcome := .passed }, phase := phase }
    rideTable := tmap bringIntoEffect s.rideTable
    rides := restingRides (tmap bringIntoEffect s.rideTable)
    calendar := { s.calendar with
      windows := tabulate fun r => buildRide { s with rideTable := tmap bringIntoEffect s.rideTable } now r
      flex := filled 48 [] }
    tallies := tallies
    monitors := freshMonitors now
    out := {
      flags := s.out.flags ++ [.checkDone, .phaseChanged]
      posted := s.out.posted ++ postedChanges s.tallies tallies
      boardStates := s.out.boardStates
      lastCalls := if phase = .lastCall then 1 else 0 } }

theorem setPhase_other {p : Phase} {s : State} (other : s.day.phase ≠ p) : setPhase p s = { s with
    day := { s.day with phase := p }
    out := { s.out with
      flags := s.out.flags ++ [.phaseChanged]
      lastCalls := if p = .lastCall then s.out.lastCalls + 1 else s.out.lastCalls } } := by
  rw [setPhase, if_neg other]
  by_cases last : p = .lastCall
  · simp only [if_pos last]
    rfl
  · simp only [if_neg last]
    rfl

theorem completeCheck_eq_openedDay {s : State} (checking : s.day.phase = .checking) (noFault : checkFaults s = []) :
    completeCheck s = openedDay s := by
  have entered : s.day.phase ≠ openingPhase s.day.park (minuteNow s) := fun same =>
    openingPhase_ne_checking _ _ (same.symm.trans checking)
  simp only [completeCheck, noFault, List.isEmpty_nil, if_true]
  generalize start : raise .checkDone { s with day := { s.day with check := checkRecord [] } } = s1
  have phase : openingPhase (setUpDay s1).day.park (minuteNow (setUpDay s1)) = openingPhase s.day.park (minuteNow s) := by
    rw [← start]
    rfl
  have present : (setUpDay s1).day.phase = s.day.phase := by
    rw [← start]
    rfl
  have flags : s.out.flags ++ [.checkDone, .phaseChanged] = (s.out.flags ++ [Flag.checkDone]) ++ [Flag.phaseChanged] :=
    List.append_cons ..
  rw [phase, setPhase_other (by rw [present]; exact entered), openedDay, flags, ← start]
  rfl

theorem completeCheck_faulty {s : State} (checking : s.day.phase = .checking) {f : CheckFault} {fs : List CheckFault}
    (faults : checkFaults s = f :: fs) : completeCheck s = flagged { s with
      day := { s.day with
        phase := .night
        check := ⟨.failed, some f.code, some f.table, f.index, min 255 (fs.length + 1)⟩ } } [.checkDone, .phaseChanged] := by
  simp only [completeCheck, faults, List.isEmpty_cons, Bool.false_eq_true, if_false]
  have other : (raise .checkDone { s with day := { s.day with check := checkRecord (f :: fs) } }).day.phase ≠ .night := by
    show s.day.phase ≠ .night
    rw [checking]
    decide
  rw [setPhase_enters other (by decide), flagged, flagged]
  have flags : (s.out.flags ++ [Flag.checkDone]) ++ [Flag.phaseChanged] = s.out.flags ++ [.checkDone, .phaseChanged] :=
    List.append_assoc ..
  rw [← flags]
  rfl

section BuildRide

variable {s : State} {now : Nat} {r : Ride}

theorem buildRide_disabled (off : (look s.rideTable r).enabled = false) : buildRide s now r = [] :=
  if_neg (by rw [rideEntry, off]; decide)

theorem buildRide_enabled (on : (look s.rideTable r).enabled = true) : buildRide s now r =
    (List.range (rideProfile s r).windowCount).map (buildWindow (rideProfile s r) (look s.rideTable r).inEffect now) :=
  if_pos on

end BuildRide

/-- Settles O31: a fault fails the check; without one the day is the one that the tables and the minute give. -/
theorem exec_checkComplete : Obligations.CheckComplete := by
  unfold Obligations.CheckComplete
  intro s high
  have taken : exec .checkComplete s = .next (if s.day.phase = .checking then completeCheck s else s) := by
    show execCheckComplete s = _
    rw [execCheckComplete, event_taken _ high]
  rw [taken]
  refine ⟨fun unchecked => by rw [if_neg unchecked], fun checking f fs faults => ?_, fun checking noFault => ?_⟩
  · rw [if_pos checking, completeCheck_faulty checking faults]
  · rw [if_pos checking, completeCheck_eq_openedDay checking noFault]
    refine ⟨openedDay s, rfl, rfl, rfl, rfl, fun r => ?_, rfl⟩
    have entry : look (tmap bringIntoEffect s.rideTable) r = bringIntoEffect (look s.rideTable r) := look_tmap ..
    have windows : look (openedDay s).calendar.windows r =
      buildRide { s with rideTable := tmap bringIntoEffect s.rideTable } (minuteNow s) r := look_tabulate ..
    have profile : rideProfile { s with rideTable := tmap bringIntoEffect s.rideTable } r =
        look s.calendar.profiles (look s.rideTable r).profile := by
      rw [rideProfile, rideEntry, entry]
      rfl
    refine ⟨entry, ?_, ?_, look_filled .., look_filled .., fun off => ?_, fun on => ?_⟩
    · show look (restingRides _) r = _
      rw [restingRides, look_tabulate, entry]
      rfl
    · show look (restingTallies _ _) r = _
      rw [restingTallies, look_tabulate, entry]
      rfl
    · rw [windows]
      refine buildRide_disabled ?_
      show (look (tmap bringIntoEffect s.rideTable) r).enabled = false
      rw [entry]
      exact off
    · have built : look (openedDay s).calendar.windows r =
          (List.range (look s.calendar.profiles (look s.rideTable r).profile).windowCount).map
            (buildWindow (look s.calendar.profiles (look s.rideTable r).profile) (look s.rideTable r).written
              (minuteNow s)) := by
        rw [windows, buildRide_enabled (by show (look (tmap bringIntoEffect s.rideTable) r).enabled = true; rw [entry]; exact on),
          profile]
        show List.map (buildWindow _ (look (tmap bringIntoEffect s.rideTable) r).inEffect _) _ = _
        rw [entry]
        rfl
      refine ⟨by rw [built, List.length_map, List.length_range], fun k within => ?_⟩
      rw [windowOf, built, List.getElem?_map, List.getElem?_range within]
      simp only [Option.map_some, buildWindow, windowCapacity_plain, regularLimit]

/-! ## The faults of the check (R8) -/

/-- The place of a code's table in the walk. -/
def codeTable : CheckCode → Nat
  | .dayTimes => 0
  | .profileInvalid => 1
  | .profileOverrun => 1
  | .rideBadProfile => 2
  | .controllerDup => 2
  | .labelDup => 2
  | .noRide => 3
  | .readerDup => 4
  | .readerBadRide => 4
  | .boardBadRange => 5

/-- The place of a code among those of its entry. -/
def codePlace : CheckCode → Nat
  | .controllerDup => 1
  | .labelDup => 2
  | .readerBadRide => 1
  | _ => 0

/-- The order of the walk. -/
def FoundBefore (f g : CheckFault) : Prop :=
  codeTable f.code < codeTable g.code ∨ (codeTable f.code = codeTable g.code ∧
    (f.index < g.index ∨ (f.index = g.index ∧ codePlace f.code < codePlace g.code)))

theorem mem_faultIf {b : Bool} {f g : CheckFault} : g ∈ faultIf b f ↔ b = true ∧ g = f := by
  cases b <;> simp [faultIf]

/-! ### What each entry gives -/

/-- R8: a profile whose lengths or count are not allowed. -/
def BadLength (p : Profile) : Prop := p.windowLength ∉ [5, 10, 15, 20, 30, 60] ∨ p.windowCount = 0 ∨ 96 < p.windowCount

/-- R8: a profile that runs beyond the day. -/
def Overruns (p : Profile) : Prop := ¬BadLength p ∧ 1440 < p.firstStart + p.windowCount * p.windowLength

theorem profileCode_eq (p : Profile) [Decidable (BadLength p)] : profileCode p =
    if BadLength p then some .profileInvalid
    else if 1440 < p.firstStart + p.windowCount * p.windowLength then some .profileOverrun else none := by
  have valid : (validLength p.windowLength && decide (1 ≤ p.windowCount) && decide (p.windowCount ≤ 96)) = true ↔
      ¬BadLength p := by
    simp only [validLength, Bool.and_eq_true, List.contains_iff_mem, decide_eq_true_eq, BadLength]
    rw [not_or, not_or, not_not]
    constructor
    · rintro ⟨⟨length, atLeast⟩, atMost⟩
      exact ⟨length, by omega, by omega⟩
    · rintro ⟨length, atLeast, atMost⟩
      exact ⟨⟨length, by omega⟩, by omega⟩
  unfold profileCode
  by_cases bad : BadLength p
  · rw [if_neg fun h => valid.1 h bad, if_pos bad]
  · rw [if_pos (valid.2 bad), if_neg bad]

open Classical in
theorem profileCode_invalid {p : Profile} : profileCode p = some .profileInvalid ↔ BadLength p := by
  rw [profileCode_eq]
  split
  · next bad => simp [bad]
  · next good => split <;> simp [good]

open Classical in
theorem profileCode_overrun {p : Profile} : profileCode p = some .profileOverrun ↔ Overruns p := by
  rw [profileCode_eq, Overruns]
  split
  · next bad => simp [bad]
  · next good => split <;> simp_all

open Classical in
theorem profileCode_isSome {p : Profile} : (profileCode p).isSome = true ↔ BadLength p ∨ Overruns p := by
  rw [profileCode_eq, Overruns]
  split
  · next bad => simp [bad]
  · next good => split <;> simp_all

theorem profileCode_cases {p : Profile} {c : CheckCode} (code : profileCode p = some c) :
    c = .profileInvalid ∨ c = .profileOverrun := by
  unfold profileCode at code
  split at code
  · split at code
    · exact .inr (Option.some.inj code).symm
    · cases code
  · exact .inl (Option.some.inj code).symm

theorem mem_parkFaults {p : ParkSettings} {f : CheckFault} :
    f ∈ parkFaults p ↔ p.lastCallMinute ≤ p.openMinute ∧ f = ⟨.dayTimes, .park, 0⟩ := by
  unfold parkFaults
  split
  · next ordered =>
    have : ¬p.lastCallMinute ≤ p.openMinute := Nat.not_le.2 ordered
    simp [this]
  · next unordered => simp [Nat.not_lt.1 unordered]

theorem profileNamed_iff {s : State} {n : ProfileIx} : profileNamed s n = true ↔
    ∃ r : Ride, (look s.rideTable r).enabled = true ∧ (look s.rideTable r).profile = n := by
  simp [profileNamed, indices, rideEntry]

theorem mem_profileFaults {s : State} {n : ProfileIx} {f : CheckFault} : f ∈ profileFaults s n ↔
    profileNamed s n = true ∧ ∃ c, profileCode (look s.calendar.profiles n) = some c ∧ f = ⟨c, .profile, n.val⟩ := by
  unfold profileFaults
  split
  · next named =>
    split
    · next c code => simp [named, code]
    · next none => simp [none]
  · next unnamed => simp [unnamed]

theorem lowerRide_iff {s : State} {r : Ride} {p : RideEntry → Bool} : lowerRide s r p = true ↔
    ∃ q : Ride, q < r ∧ (look s.rideTable q).enabled = true ∧ p (look s.rideTable q) = true := by
  simp [lowerRide, indices, rideEntry, and_assoc]

theorem mem_rideFaults {s : State} {r : Ride} {f : CheckFault} : f ∈ rideFaults s r ↔
    (look s.rideTable r).enabled = true ∧
      (((profileCode (look s.calendar.profiles (look s.rideTable r).profile)).isSome = true ∧
          f = ⟨.rideBadProfile, .ride, r.val⟩) ∨
        (((look s.rideTable r).controllerAddress = 0 ∨ ∃ q : Ride, q < r ∧ (look s.rideTable q).enabled = true ∧
            (look s.rideTable q).controllerAddress = (look s.rideTable r).controllerAddress) ∧
          f = ⟨.controllerDup, .ride, r.val⟩) ∨
        ((∃ q : Ride, q < r ∧ (look s.rideTable q).enabled = true ∧
            (look s.rideTable q).label = (look s.rideTable r).label) ∧ f = ⟨.labelDup, .ride, r.val⟩)) := by
  cases on : (look s.rideTable r).enabled with
  | true =>
    simp only [rideFaults, rideEntry, on, if_true, List.mem_append, mem_faultIf, Bool.or_eq_true, beq_iff_eq, lowerRide_iff,
      true_and, or_assoc]
  | false => simp [rideFaults, rideEntry, on]

theorem mem_noRideFaults {s : State} {f : CheckFault} :
    f ∈ noRideFaults s ↔ (∀ r : Ride, (look s.rideTable r).enabled = false) ∧ f = ⟨.noRide, .ride, 0⟩ := by
  rw [noRideFaults, mem_faultIf]
  simp [indices, rideEntry]

theorem mem_readerFaults {s : State} {i : ReaderIx} {f : CheckFault} : f ∈ readerFaults s i ↔
    (look s.readers i).used = true ∧
      (((∃ j : ReaderIx, j < i ∧ (look s.readers j).used = true ∧ (look s.readers j).address = (look s.readers i).address) ∧
          f = ⟨.readerDup, .reader, i.val⟩) ∨
        (((look s.readers i).claimMode ≠ .forward ∧ (look s.rideTable (look s.readers i).ride).enabled = false) ∧
          f = ⟨.readerBadRide, .reader, i.val⟩)) := by
  unfold readerFaults
  simp only []
  split
  · next used =>
    simp only [List.mem_append, mem_faultIf, List.any_eq_true, indices, List.mem_finRange, true_and, Bool.and_eq_true,
      decide_eq_true_eq, beq_iff_eq, Bool.not_eq_true', used, and_assoc, rideEntry]
    rfl
  · next unused => simp [unused]

theorem mem_boardFaults {s : State} {b : BoardIx} {f : CheckFault} : f ∈ boardFaults s b ↔
    ((look s.boardTable b).address ≠ 0 ∧ ((look s.boardTable b).rideCount = 0 ∨ 12 < (look s.boardTable b).rideCount ∨
      48 < (look s.boardTable b).firstRide + (look s.boardTable b).rideCount)) ∧ f = ⟨.boardBadRange, .board, b.val⟩ := by
  rw [boardFaults, mem_faultIf, Bool.and_eq_true, boardUsed, bne_iff_ne, Bool.not_eq_true', ← Bool.not_eq_true,
    boardRangeOk_iff]
  simp only [boardEntry]
  refine and_congr_left fun _ => and_congr_right fun _ => ?_
  omega

theorem mem_checkFaults {s : State} {f : CheckFault} : f ∈ checkFaults s ↔
    f ∈ parkFaults s.day.park ∨ (∃ n, f ∈ profileFaults s n) ∨ (∃ r, f ∈ rideFaults s r) ∨ f ∈ noRideFaults s ∨
      (∃ i, f ∈ readerFaults s i) ∨ ∃ b, f ∈ boardFaults s b := by
  simp [checkFaults, indices]

/-! ### The order of the walk -/

/-- The faults of one table, entry by entry. -/
structure Walked (k : Nat) (l : List CheckFault) : Prop where
  table : ∀ f ∈ l, codeTable f.code = k
  ordered : l.Pairwise FoundBefore

theorem Walked.entries {n k : Nat} {f : Fin n → List CheckFault}
    (entry : ∀ i, ∀ x ∈ f i, codeTable x.code = k ∧ x.index = i.val)
    (places : ∀ i, (f i).Pairwise fun x y => codePlace x.code < codePlace y.code) : Walked k ((indices n).flatMap f) where
  table x hx := by
    obtain ⟨i, -, inEntry⟩ := List.mem_flatMap.1 hx
    exact (entry i x inEntry).1
  ordered := by
    rw [List.pairwise_flatMap]
    refine ⟨fun i _ => (places i).imp_of_mem fun hx hy lower => ?_, (List.pairwise_lt_finRange n).imp fun {i j} lower x hx y hy => ?_⟩
    · obtain ⟨xTable, xIndex⟩ := entry i _ hx
      obtain ⟨yTable, yIndex⟩ := entry i _ hy
      exact .inr ⟨xTable.trans yTable.symm, .inr ⟨xIndex.trans yIndex.symm, lower⟩⟩
    · obtain ⟨xTable, xIndex⟩ := entry i x hx
      obtain ⟨yTable, yIndex⟩ := entry j y hy
      refine .inr ⟨xTable.trans yTable.symm, .inl ?_⟩
      rw [xIndex, yIndex]
      exact lower

/-- The walk up to a table. -/
structure WalkedBelow (k : Nat) (l : List CheckFault) : Prop where
  table : ∀ f ∈ l, codeTable f.code < k
  ordered : l.Pairwise FoundBefore

theorem WalkedBelow.append {k : Nat} {l l' : List CheckFault} (below : WalkedBelow k l) (next : Walked k l') :
    WalkedBelow (k + 1) (l ++ l') where
  table f hf := by
    rcases List.mem_append.1 hf with h | h
    · exact Nat.lt_succ_of_lt (below.table f h)
    · rw [next.table f h]
      exact Nat.lt_succ_self k
  ordered := List.pairwise_append.2 ⟨below.ordered, next.ordered, fun f hf g hg =>
    .inl (by rw [next.table g hg]; exact below.table f hf)⟩

theorem walked_parkFaults (p : ParkSettings) : Walked 0 (parkFaults p) where
  table f hf := by
    rw [(mem_parkFaults.1 hf).2]
    rfl
  ordered := by
    unfold parkFaults
    split
    · exact List.Pairwise.nil
    · exact List.pairwise_singleton ..

theorem pairwise_faultIf (b : Bool) (f : CheckFault) (R : CheckFault → CheckFault → Prop) : (faultIf b f).Pairwise R := by
  cases b
  · exact List.Pairwise.nil
  · exact List.pairwise_singleton ..

theorem walked_profileFaults (s : State) : Walked 1 ((indices 8).flatMap (profileFaults s)) := by
  refine Walked.entries (fun n f hf => ?_) fun n => ?_
  · obtain ⟨-, c, code, rfl⟩ := mem_profileFaults.1 hf
    rcases profileCode_cases code with rfl | rfl <;> exact ⟨rfl, rfl⟩
  · unfold profileFaults
    split
    · split
      · exact List.pairwise_singleton ..
      · exact List.Pairwise.nil
    · exact List.Pairwise.nil

theorem walked_rideFaults (s : State) : Walked 2 ((indices 48).flatMap (rideFaults s)) := by
  refine Walked.entries (fun r f hf => ?_) fun r => ?_
  · obtain ⟨-, ⟨-, rfl⟩ | ⟨-, rfl⟩ | ⟨-, rfl⟩⟩ := mem_rideFaults.1 hf <;> exact ⟨rfl, rfl⟩
  · unfold rideFaults
    simp only []
    split
    · refine List.pairwise_append.2 ⟨List.pairwise_append.2 ⟨pairwise_faultIf .., pairwise_faultIf .., fun f hf g hg => ?_⟩,
        pairwise_faultIf .., fun f hf g hg => ?_⟩
      · rw [(mem_faultIf.1 hf).2, (mem_faultIf.1 hg).2]
        exact Nat.zero_lt_one
      · rw [(mem_faultIf.1 hg).2]
        rcases List.mem_append.1 hf with h | h
        · rw [(mem_faultIf.1 h).2]
          exact Nat.zero_lt_two
        · rw [(mem_faultIf.1 h).2]
          exact Nat.one_lt_two
    · exact List.Pairwise.nil

theorem walked_noRideFaults (s : State) : Walked 3 (noRideFaults s) where
  table f hf := by
    rw [(mem_noRideFaults.1 hf).2]
    rfl
  ordered := pairwise_faultIf ..

theorem walked_readerFaults (s : State) : Walked 4 ((indices 512).flatMap (readerFaults s)) := by
  refine Walked.entries (fun i f hf => ?_) fun i => ?_
  · obtain ⟨-, ⟨-, rfl⟩ | ⟨-, rfl⟩⟩ := mem_readerFaults.1 hf <;> exact ⟨rfl, rfl⟩
  · unfold readerFaults
    simp only []
    split
    · refine List.pairwise_append.2 ⟨pairwise_faultIf .., pairwise_faultIf .., fun f hf g hg => ?_⟩
      rw [(mem_faultIf.1 hf).2, (mem_faultIf.1 hg).2]
      exact Nat.zero_lt_one
    · exact List.Pairwise.nil

theorem walked_boardFaults (s : State) : Walked 5 ((indices 64).flatMap (boardFaults s)) := by
  refine Walked.entries (fun b f hf => ?_) fun b => pairwise_faultIf ..
  rw [(mem_boardFaults.1 hf).2]
  exact ⟨rfl, rfl⟩

theorem checkFaults_ordered (s : State) : (checkFaults s).Pairwise FoundBefore := by
  have start : WalkedBelow 1 (parkFaults s.day.park) :=
    ⟨fun f hf => by rw [(walked_parkFaults s.day.park).table f hf]; decide, (walked_parkFaults s.day.park).ordered⟩
  exact (((((start.append (walked_profileFaults s)).append (walked_rideFaults s)).append (walked_noRideFaults s)).append
    (walked_readerFaults s)).append (walked_boardFaults s)).ordered

theorem FoundBefore.ne {f g : CheckFault} (before : FoundBefore f g) : f ≠ g := by
  rintro rfl
  rcases before with h | ⟨-, h | ⟨-, h⟩⟩ <;> exact Nat.lt_irrefl _ h

/-! ### The statement -/

section Finds

variable {s : State}

theorem profile_fault_iff {n : ProfileIx} {c : CheckCode} : ⟨c, .profile, n.val⟩ ∈ checkFaults s ↔
    profileNamed s n = true ∧ profileCode (look s.calendar.profiles n) = some c := by
  rw [mem_checkFaults]
  simp [mem_parkFaults, mem_profileFaults, mem_rideFaults, mem_noRideFaults, mem_readerFaults, mem_boardFaults,
    Fin.val_inj]

theorem ride_fault_iff {r : Ride} {c : CheckCode} (notNone : c ≠ .noRide) :
    ⟨c, .ride, r.val⟩ ∈ checkFaults s ↔ ⟨c, .ride, r.val⟩ ∈ rideFaults s r := by
  rw [mem_checkFaults]
  constructor
  · rintro (h | ⟨n, h⟩ | ⟨q, h⟩ | h | ⟨i, h⟩ | ⟨b, h⟩)
    · cases (mem_parkFaults.1 h).2
    · obtain ⟨-, d, -, eq⟩ := mem_profileFaults.1 h
      cases eq
    · have same : q = r := by
        obtain ⟨-, ⟨-, eq⟩ | ⟨-, eq⟩ | ⟨-, eq⟩⟩ := mem_rideFaults.1 h <;>
          exact Fin.ext (congrArg CheckFault.index eq).symm
      exact same ▸ h
    · exact absurd (congrArg CheckFault.code (mem_noRideFaults.1 h).2) notNone
    · obtain ⟨-, ⟨-, eq⟩ | ⟨-, eq⟩⟩ := mem_readerFaults.1 h <;> cases eq
    · cases (mem_boardFaults.1 h).2
  · exact fun h => .inr (.inr (.inl ⟨r, h⟩))

theorem reader_fault_iff {i : ReaderIx} {c : CheckCode} :
    ⟨c, .reader, i.val⟩ ∈ checkFaults s ↔ ⟨c, .reader, i.val⟩ ∈ readerFaults s i := by
  rw [mem_checkFaults]
  constructor
  · rintro (h | ⟨n, h⟩ | ⟨q, h⟩ | h | ⟨j, h⟩ | ⟨b, h⟩)
    · cases (mem_parkFaults.1 h).2
    · obtain ⟨-, d, -, eq⟩ := mem_profileFaults.1 h
      cases eq
    · obtain ⟨-, ⟨-, eq⟩ | ⟨-, eq⟩ | ⟨-, eq⟩⟩ := mem_rideFaults.1 h <;> cases eq
    · cases (mem_noRideFaults.1 h).2
    · have same : j = i := by
        obtain ⟨-, ⟨-, eq⟩ | ⟨-, eq⟩⟩ := mem_readerFaults.1 h <;> exact Fin.ext (congrArg CheckFault.index eq).symm
      exact same ▸ h
    · cases (mem_boardFaults.1 h).2
  · exact fun h => .inr (.inr (.inr (.inr (.inl ⟨i, h⟩))))

theorem board_fault_iff {b : BoardIx} {c : CheckCode} :
    ⟨c, .board, b.val⟩ ∈ checkFaults s ↔ ⟨c, .board, b.val⟩ ∈ boardFaults s b := by
  rw [mem_checkFaults]
  constructor
  · rintro (h | ⟨n, h⟩ | ⟨q, h⟩ | h | ⟨j, h⟩ | ⟨d, h⟩)
    · cases (mem_parkFaults.1 h).2
    · obtain ⟨-, d, -, eq⟩ := mem_profileFaults.1 h
      cases eq
    · obtain ⟨-, ⟨-, eq⟩ | ⟨-, eq⟩ | ⟨-, eq⟩⟩ := mem_rideFaults.1 h <;> cases eq
    · cases (mem_noRideFaults.1 h).2
    · obtain ⟨-, ⟨-, eq⟩ | ⟨-, eq⟩⟩ := mem_readerFaults.1 h <;> cases eq
    · have same : d = b := Fin.ext (congrArg CheckFault.index (mem_boardFaults.1 h).2).symm
      exact same ▸ h
  · exact fun h => .inr (.inr (.inr (.inr (.inr ⟨b, h⟩))))

/-- R8: the codes with their tables and the ranges of their indices. -/
theorem checkFaults_shapes {f : CheckFault} (found : f ∈ checkFaults s) :
    f = ⟨.dayTimes, .park, 0⟩ ∨ f = ⟨.noRide, .ride, 0⟩ ∨
      (f.code ∈ [.profileInvalid, .profileOverrun] ∧ f.table = .profile ∧ f.index < 8) ∨
      (f.code ∈ [.rideBadProfile, .controllerDup, .labelDup] ∧ f.table = .ride ∧ f.index < 48) ∨
      (f.code ∈ [.readerDup, .readerBadRide] ∧ f.table = .reader ∧ f.index < 512) ∨
      (f.code = .boardBadRange ∧ f.table = .board ∧ f.index < 64) := by
  rcases mem_checkFaults.1 found with h | ⟨n, h⟩ | ⟨q, h⟩ | h | ⟨j, h⟩ | ⟨d, h⟩
  · exact .inl (mem_parkFaults.1 h).2
  · obtain ⟨-, c, code, rfl⟩ := mem_profileFaults.1 h
    refine .inr (.inr (.inl ⟨?_, rfl, n.isLt⟩))
    rcases profileCode_cases code with rfl | rfl <;> simp
  · refine .inr (.inr (.inr (.inl ?_)))
    obtain ⟨-, ⟨-, rfl⟩ | ⟨-, rfl⟩ | ⟨-, rfl⟩⟩ := mem_rideFaults.1 h <;> exact ⟨by simp, rfl, q.isLt⟩
  · exact .inr (.inl (mem_noRideFaults.1 h).2)
  · refine .inr (.inr (.inr (.inr (.inl ?_))))
    obtain ⟨-, ⟨-, rfl⟩ | ⟨-, rfl⟩⟩ := mem_readerFaults.1 h <;> exact ⟨by simp, rfl, j.isLt⟩
  · rw [(mem_boardFaults.1 h).2]
    exact .inr (.inr (.inr (.inr (.inr ⟨rfl, rfl, d.isLt⟩))))

theorem dayTimes_fault_iff :
    ⟨.dayTimes, .park, 0⟩ ∈ checkFaults s ↔ s.day.park.lastCallMinute ≤ s.day.park.openMinute := by
  rw [mem_checkFaults]
  simp [mem_parkFaults, mem_profileFaults, mem_rideFaults, mem_noRideFaults, mem_readerFaults, mem_boardFaults]

theorem noRide_fault_iff : ⟨.noRide, .ride, 0⟩ ∈ checkFaults s ↔ ∀ r : Ride, (look s.rideTable r).enabled = false := by
  rw [mem_checkFaults]
  simp [mem_parkFaults, mem_profileFaults, mem_rideFaults, mem_noRideFaults, mem_readerFaults, mem_boardFaults]

end Finds

/-- Settles O32: membership code by code, and the order of the walk table by table. -/
theorem checkFaultsFound : Obligations.CheckFaultsFound := by
  unfold Obligations.CheckFaultsFound
  intro s badLength overrun named faults codeOrder tableOrder before
  have places : codeOrder = codePlace := funext fun c => by cases c <;> rfl
  have tables : tableOrder = codeTable := funext fun c => by cases c <;> rfl
  have ordered : faults.Pairwise before := by
    refine (checkFaults_ordered s).imp fun found => ?_
    show tableOrder _ < tableOrder _ ∨ _
    rw [tables, places]
    exact found
  refine ⟨(checkFaults_ordered s).imp FoundBefore.ne, ordered, fun f => checkFaults_shapes, fun f found times => ?_,
    dayTimes_fault_iff, fun n => ?_, fun n => ?_, fun r => ⟨?_, ?_, ?_⟩, noRide_fault_iff, fun i => ⟨?_, ?_⟩, fun b => ?_⟩
  · rcases checkFaults_shapes found with h | rfl | ⟨h, -⟩ | ⟨h, -⟩ | ⟨h, -⟩ | ⟨h, -⟩
    · exact h
    · cases times
    all_goals
      rw [times] at h
      simp at h
  · rw [profile_fault_iff, profileNamed_iff, profileCode_invalid]
    rfl
  · rw [profile_fault_iff, profileNamed_iff, profileCode_overrun]
    rfl
  · rw [ride_fault_iff (by decide), mem_rideFaults, profileCode_isSome]
    simp
    exact fun _ => Iff.rfl
  · rw [ride_fault_iff (by decide), mem_rideFaults]
    simp
  · rw [ride_fault_iff (by decide), mem_rideFaults]
    simp
  · rw [reader_fault_iff, mem_readerFaults]
    simp
  · rw [reader_fault_iff, mem_readerFaults]
    simp
  · rw [board_fault_iff, mem_boardFaults]
    simp

end Sys2Proof.Machine
end

section
/-! PROOFS. The Ride State Unit's reports (O33) and credit additions (O35), and the Admission Unit's refused, observed (O36) and
PASS_MERGE taps (O38). -/

namespace Sys2Proof.Machine

/-! ## Reports (R22, R23) -/

/-- R24, R25: a ride enters a state other than OFF. -/
theorem enterState_eq (r : Ride) {st : RideState} (on : st ≠ .off) (s : State) : enterState r st s = rideEnters s r st := by
  cases st with
  | off => exact absurd rfl on
  | up => exact enterState_up r s
  | suspect => exact enterState_suspect r s
  | down =>
    simp only [enterState, handState, raise, stopTimer, upd_upd, rideEnters]
    simp
  | closed =>
    simp only [enterState, handState, stopTimer, upd_upd, rideEnters]
    simp

theorem reportedState_eq_none {code : Nat} : reportedState code = none ↔ code ∉ [1, 2, 3] := by
  unfold reportedState
  split <;> simp_all

theorem reportedState_of_mem {code : Nat} {st : RideState}
    (known : (code, st) ∈ [(1, RideState.up), (2, .down), (3, .closed)]) : reportedState code = some st ∧ st ≠ .off := by
  simp only [List.mem_cons, Prod.mk.injEq, List.not_mem_nil, or_false] at known
  rcases known with ⟨rfl, rfl⟩ | ⟨rfl, rfl⟩ | ⟨rfl, rfl⟩ <;> exact ⟨rfl, nofun⟩

section Report

variable {r : Ride} {st : RideState} {s : State}

theorem reportState_nothing (nothing : rideState s r = .off ∨ rideState s r = st) : reportState r st s = s :=
  if_pos nothing

theorem reportState_enters (on : st ≠ .off) (running : rideState s r ≠ .off) (other : rideState s r ≠ st) :
    reportState r st s = rideEnters s r st :=
  (if_neg (not_or.2 ⟨running, other⟩)).trans (enterState_eq r on s)

end Report

theorem exec_rideStatus_of_fieldHead {s : State} {e : FieldEntry} {rest : List FieldEntry} {code : Nat}
    (head : fieldHead s e rest) (body : e.body = .rideStatus code) :
    exec .rideStatus s = .next (takeRideStatus e code { s with fieldIntake := rest }) := by
  have ⟨high, _, _⟩ := head
  show execRideStatus s = _
  rw [execRideStatus, event_taken _ high, deliver_of_fieldHead head]
  simp only [body]

section TakeRideStatus

variable {e : FieldEntry} {code : Nat} {s : State} {st : RideState}

theorem takeRideStatus_unknown (unknown : code ∉ [1, 2, 3]) : takeRideStatus e code s = flagged s [.badMessage] := by
  rw [takeRideStatus, reportedState_eq_none.2 unknown]
  rfl

variable (known : reportedState code = some st)
include known

theorem takeRideStatus_nothing (nothing : inDay s.day.phase = false ∨ rideByController s e.source = none) :
    takeRideStatus e code s = s := by
  rcases nothing with night | noRide
  · simp only [takeRideStatus, known, night, Bool.not_false, if_true]
  · simp only [takeRideStatus, known, noRide, ite_self]

theorem takeRideStatus_reports {r : Ride} (day : inDay s.day.phase = true) (ride : rideByController s e.source = some r) :
    takeRideStatus e code s = reportState r st s := by
  simp only [takeRideStatus, known, day, ride, Bool.not_true, Bool.false_eq_true, if_false]

end TakeRideStatus

section RideOverride

variable {code : Nat} {r : Ride} {st : RideState} {s : State}

theorem rideOverride_badCode (unknown : code ∉ [1, 2, 3]) : rideOverride r.val code s = answered .badValue s := by
  simp only [rideOverride, index?_val, reportedState_eq_none.2 unknown]

/-- R23: a known report is judged by the phase and the ride's state. -/
theorem rideOverride_known (known : reportedState code = some st) : rideOverride r.val code s =
    if s.day.phase = .checking then answered .busy s
    else if s.day.phase = .night then answered .refusedPhase s
    else if rideState s r = .off then answered .notFound s
    else answered .done (reportState r st s) := by
  simp only [rideOverride, index?_val, known]

end RideOverride

/-- In the day the phase is neither NIGHT nor CHECKING. -/
theorem inDay_phase {p : Phase} (day : inDay p = true) : p ≠ .checking ∧ p ≠ .night := by
  cases p with
  | night | checking => cases day
  | preopen | opened | lastCall => exact ⟨nofun, nofun⟩

/-- Settles O33: a report is judged by its code, the phase, the ride and the ride's state. -/
theorem rideReports : Obligations.RideReports := by
  unfold Obligations.RideReports
  refine ⟨fun e rest code s head body => ?_, fun e rest index code s head command => ?_⟩
  · intro s1
    rw [exec_rideStatus_of_fieldHead head body]
    refine ⟨fun unknown => congrArg _ (takeRideStatus_unknown unknown), fun st member => ?_⟩
    obtain ⟨known, on⟩ := reportedState_of_mem member
    refine ⟨fun nothing => congrArg _ (takeRideStatus_nothing (s := s1) known nothing), fun r day ride => ?_⟩
    have reports := takeRideStatus_reports (s := s1) known day ride
    exact ⟨fun nothing => congrArg _ (reports.trans (reportState_nothing nothing)),
      fun running other => congrArg _ (reports.trans (reportState_enters on running other))⟩
  · intro s1 answers
    have answer {x : Answer × State} (acts : rideOverride index code s1 = x) :
        exec .rideOverride s = .next (mgmtFinish [mgmtReply e 0x09 x.1] x.2) := exec_rideOverride_of_head head command acts
    refine ⟨fun beyond => answer (x := answered .badIndex s1) (by rw [rideOverride, index?_beyond beyond]), fun r here => ?_⟩
    subst here
    refine ⟨fun unknown => answer (rideOverride_badCode unknown), fun st member => ?_⟩
    obtain ⟨known, on⟩ := reportedState_of_mem member
    have judged := rideOverride_known (r := r) (s := s1) known
    refine ⟨fun checking => answer (judged.trans (if_pos checking)), fun night => ?_, fun day off => ?_,
      fun day running present => ?_, fun day running other => ?_⟩
    · have phase : s1.day.phase = .night := night
      exact answer (judged.trans ((if_neg (by rw [phase]; decide)).trans (if_pos night)))
    all_goals have inTheDay := judged.trans ((if_neg (inDay_phase day).1).trans (if_neg (inDay_phase day).2))
    · exact answer (inTheDay.trans (if_pos off))
    · have stays := answer (inTheDay.trans (if_neg running))
      rw [reportState_nothing (s := s1) (.inr present)] at stays
      exact stays
    · have enters := answer (inTheDay.trans (if_neg running))
      rw [reportState_enters (s := s1) on running other] at enters
      exact enters

/-! ## Credit additions (R30, R34) -/

section Credit

variable {r : Ride} {n : Nat} {before after : List (Ride × Nat)} {s : State}

theorem takeFirst_credit (credits : s.out.credits = before ++ (r, n) :: after) (others : ∀ x ∈ before, x.1 ≠ r) :
    takeFirst (fun h => h.1 == r) s.out.credits = some ((r, n), before ++ after) :=
  takeFirst_eq_some.2 ⟨before, after, credits, fun x hx => by simpa using others x hx, by simp, rfl⟩

/-- R30: the oldest outstanding addition of a ride is taken. -/
theorem exec_creditAddition (high : s.resetLow = false) (credits : s.out.credits = before ++ (r, n) :: after)
    (others : ∀ x ∈ before, x.1 ≠ r) : exec (.creditAddition r) s =
      .next (takeCredit r n { s with out := { s.out with credits := before ++ after } }) := by
  show execCreditAddition r s = _
  rw [execCreditAddition, event_taken _ high, takeFirst_credit credits others]

theorem takeCredit_night (night : inDay s.day.phase = false) : takeCredit r n s = s := by
  rw [takeCredit, night]
  rfl

theorem takeCredit_day (day : inDay s.day.phase = true) : takeCredit r n s = { s with
    rides := put s.rides r { look s.rides r with credit := min 1000 ((look s.rides r).credit + n) } } := if_pos day

end Credit

/-- R32: the state effect of a dispatch leaves the accounts. -/
theorem dispatchState_keeps (r : Ride) (s : State) :
    (look (dispatchState r s).rides r).credit = (look s.rides r).credit ∧
      (dispatchState r s).out.dispatches = s.out.dispatches ∧ (dispatchState r s).out.records = s.out.records ∧
      (dispatchState r s).out.credits = s.out.credits ∧ (dispatchState r s).day = s.day ∧
      (dispatchState r s).resetLow = s.resetLow := by
  unfold dispatchState
  split
  · refine ⟨?_, rfl, rfl, rfl, rfl, rfl⟩
    rw [restartTimer, look_upd_same]
  · rw [enterState_up]
    refine ⟨?_, rfl, rfl, rfl, rfl, rfl⟩
    rw [rideEnters, look_put_same]
  all_goals exact ⟨rfl, rfl, rfl, rfl, rfl, rfl⟩

/-- R31, R33: what an acted dispatch accounts. -/
theorem exec_dispatch_accounts {s : State} {e : FieldEntry} {rest : List FieldEntry} {r : Ride} {n : Nat}
    (head : fieldHead s e rest) (body : e.body = .dispatch n) (day : inDay s.day.phase = true)
    (ride : rideByController s e.source = some r) (on : (look s.rides r).state ≠ .off) :
    ∃ t, exec .dispatch s = .next t ∧
      (look t.rides r).credit = (look s.rides r).credit - min n (look s.rides r).credit ∧
      t.out.dispatches = s.out.dispatches ++ [⟨r, n - min n (look s.rides r).credit, e.time.getD (clockNow s)⟩] ∧
      t.out.records = s.out.records ++ [⟨r, e.time.getD (clockNow s), n, min n (look s.rides r).credit⟩] ∧
      t.out.credits = s.out.credits ∧ t.day = s.day ∧ t.resetLow = s.resetLow := by
  let s1 : State := { s with fieldIntake := rest }
  obtain ⟨credit, dispatches, records, credits, theDay, low⟩ :=
    dispatchState_keeps r (accountDispatch r n (entryTime e s1) s1)
  refine ⟨_, (exec_dispatch_of_fieldHead head body).trans
    (congrArg _ (takeDispatchMessage_acted (s := s1) n day ride on)), credit.trans ?_, dispatches, records, credits, theDay, low⟩
  show (look (upd s.rides r _) r).credit = _
  rw [look_upd_same]

/-- Settles O35: the addition alone, and the two orders of an addition of 4 and a dispatch of 20. -/
theorem creditAddition : Obligations.CreditAddition := by
  unfold Obligations.CreditAddition
  refine ⟨fun r n before after s high credits others => ?_,
    fun e r before after rest s head body day ride on empty credits others => ⟨?_, ?_⟩⟩
  · intro s1
    rw [exec_creditAddition high credits others]
    exact ⟨fun night => congrArg _ (takeCredit_night (s := s1) night), fun day => congrArg _ (takeCredit_day (s := s1) day)⟩
  · have ⟨high, idle, intake⟩ := head
    let t : State := { s with
      out := { s.out with credits := before ++ after }
      rides := put s.rides r { look s.rides r with credit := min 1000 ((look s.rides r).credit + 4) } }
    have first : exec (.creditAddition r) s = .next t := (exec_creditAddition high credits others).trans
      (congrArg _ (takeCredit_day (s := { s with out := { s.out with credits := before ++ after } }) day))
    have has : look t.rides r = { look s.rides r with credit := 4 } := by
      rw [look_put_same, empty]
      rfl
    obtain ⟨u, second, credit, dispatches, records, -⟩ :=
      exec_dispatch_accounts (s := t) (rest := rest) ⟨high, idle, intake⟩ body day ride (by rw [has]; exact on)
    rw [has] at credit dispatches records
    exact ⟨t, u, _, first, second, credit, dispatches, rfl, rfl, _, records, rfl, rfl, rfl⟩
  · have high := head.1
    obtain ⟨t, first, credit, dispatches, records, kept, theDay, low⟩ := exec_dispatch_accounts head body day ride on
    rw [empty] at credit dispatches records
    have second := (exec_creditAddition (s := t) (low.trans high) (kept.trans credits) others).trans
      (congrArg _ (takeCredit_day (s := { t with out := { t.out with credits := before ++ after } }) (by rw [theDay]; exact day)))
    refine ⟨t, _, _, first, second, ?_, dispatches, rfl, rfl, _, records, rfl, rfl, rfl⟩
    show (look (put t.rides r _) r).credit = 4
    rw [look_put_same]
    show min 1000 ((look t.rides r).credit + 4) = 4
    rw [credit]
    rfl

/-! ## Taps refused or observed (R98, R99, R111, R112) -/

theorem takeTap_badHeadCount {e : FieldEntry} {i : ReaderIx} {c : Credential} {h : Nat} {s : State} (mode : ActedMode)
    (tag : Tag) (bad : h = 0 ∨ 8 < h) : takeTap e i mode c h tag s = flagged s [.badMessage] := if_pos bad

section JudgeTap

variable {rd : Reader} {c : Credential} {h time : Nat} {s : State}

theorem judgeTap_parkClosed (night : inDay s.day.phase = false) :
    judgeTap rd c h time s = (refusal .refuseParkClosed, s) := by
  simp only [judgeTap, night, Bool.not_false, if_true]

theorem judgeTap_badCredential (day : inDay s.day.phase = true) (invalid : validCredential c = false) :
    judgeTap rd c h time s = (refusal .refuseBadCredential, changeCounts rd.ride (countRefused rd.role) s) := by
  simp only [judgeTap, day, invalid, Bool.not_true, Bool.not_false, Bool.false_eq_true, if_false, if_true]

theorem judgeTap_off (day : inDay s.day.phase = true) (valid : validCredential c = true) (off : rideState s rd.ride = .off) :
    judgeTap rd c h time s = (refusal .refuseRideClosed, changeCounts rd.ride (countRefused rd.role) s) := by
  simp only [judgeTap, day, valid, off, Bool.not_true, Bool.false_eq_true, if_false, if_true]

theorem judgeTap_passMerge (merge : rd.role = .passMerge) (day : inDay s.day.phase = true) (valid : validCredential c = true)
    (on : rideState s rd.ride ≠ .off) : judgeTap rd c h time s = judgeMerge c rd.ride s := by
  simp only [judgeTap, merge, day, valid, on, Bool.not_true, Bool.false_eq_true, if_false]

end JudgeTap

section ObserveTap

variable {rd : Reader} {h time : Nat} {s : State}

theorem observeTap_nothing (nothing : inDay s.day.phase = false ∨ rideState s rd.ride = .off) :
    observeTap rd h time s = s := by
  refine if_pos ?_
  rw [Bool.or_eq_true, Bool.not_eq_true', beq_iff_eq]
  exact nothing

theorem observeTap_standbyEntry (day : inDay s.day.phase = true) (on : rideState s rd.ride ≠ .off)
    (role : rd.role = .standbyEntry) : observeTap rd h time s = handStandby rd.ride h time s := by
  simp [observeTap, day, on, role]

theorem observeTap_passMerge (day : inDay s.day.phase = true) (on : rideState s rd.ride ≠ .off)
    (role : rd.role = .passMerge) : observeTap rd h time s = handCredit rd.ride h s := by
  simp [observeTap, day, on, role]

end ObserveTap

theorem takeTap_observe {e : FieldEntry} {i : ReaderIx} {c : Credential} {h : Nat} {s : State} (tag : Tag) (someone : 1 ≤ h)
    (atMost : h ≤ 8) : takeTap e i .observe c h tag s = observeTap (look s.readers i) h (entryTime e s) s :=
  if_neg (by omega)

theorem countRefused_eq (role : Role) : countRefused role = fun k => match role with
    | .standbyEntry => { k with standbyRefused := min 16777215 (k.standbyRefused + 1) }
    | .passMerge => { k with mergeRefused := min 16777215 (k.mergeRefused + 1) } := by
  cases role <;> rfl

theorem validCredential_eq_false {c : Credential} (invalid : c = 0 ∨ c = BitVec.allOnes 48) : validCredential c = false := by
  rw [← Bool.not_eq_true, validCredential_iff]
  rintro ⟨notZero, notOnes⟩
  exact invalid.elim notZero notOnes

/-- Settles O36: the refusals of R98 and R99, and the observed tap. -/
theorem tapsRefusedOrObserved : Obligations.TapsRefusedOrObserved := by
  unfold Obligations.TapsRefusedOrObserved
  refine ⟨fun e rest i mode c h tag s head body => ?_, fun e rest i c h tag s head body someone atMost => ?_⟩
  · intro s1 rd refused count counted
    have taken := exec_tap_of_fieldHead head body
    refine ⟨fun bad => taken.trans (congrArg _ (takeTap_badHeadCount mode tag bad)), fun someone atMost owned => ?_⟩
    have answer {x : VerdictResult} {t : State} (judged : judgeTap rd c h (entryTime e s1) s1 = (refusal x, t)) :
        exec .tap s = .next (refused x t) :=
      taken.trans (congrArg _ (takeTap_of_judgeTap (s := s1) tag someone atMost owned judged))
    have counts : changeCounts rd.ride (countRefused rd.role) s1 = counted := by
      rw [countRefused_eq]
      rfl
    refine ⟨fun night => answer (judgeTap_parkClosed (s := s1) night), fun day invalid => ?_,
      fun day notZero notOnes off => ?_⟩
    · rw [← counts]
      exact answer (judgeTap_badCredential (s := s1) day (validCredential_eq_false invalid))
    · rw [← counts]
      exact answer (judgeTap_off (s := s1) day (validCredential_iff.2 ⟨notZero, notOnes⟩) off)
  · intro s1 r
    have taken := (exec_tap_of_fieldHead head body).trans
      (congrArg _ (takeTap_observe (e := e) (i := i) (c := c) (s := s1) tag someone atMost))
    exact ⟨fun nothing => taken.trans (congrArg _ (observeTap_nothing (s := s1) nothing)),
      fun day on role => taken.trans (congrArg _ (observeTap_standbyEntry (s := s1) day on role)),
      fun day on role => taken.trans (congrArg _ (observeTap_passMerge (s := s1) day on role))⟩

/-! ## PASS_MERGE taps (R54, R101 to R103) -/

section JudgeMerge

variable {c : Credential} {r : Ride} {s : State}

theorem judgeMerge_refused {x : Redemption} (claim : redemptionClaim c r s = (x, s)) (none : admittedParty x = none) :
    judgeMerge c r s = (verdictOf x, changeCounts r (countRefused .passMerge) s) := by
  simp only [judgeMerge, claim, none]

theorem judgeMerge_admitted {x : Redemption} {t : State} {party : Nat} (claim : redemptionClaim c r s = (x, t))
    (admitted : admittedParty x = some party) :
    judgeMerge c r s = (verdictOf x, handCredit r party (changeCounts r (countAdmitted .passMerge) t)) := by
  simp only [judgeMerge, claim, admitted]

/-- R54: the claim of a pass whose window holds it. -/
theorem redemptionClaim_window {p : Pass} {k : Nat} {w : Window} {x : Holder} (pass : passOf c r s.guests = some p)
    (place : p.place = .window k) (window : windowOf s r k = some w) (holder : holderIn c w.holders = some x) :
    redemptionClaim c r s = match w.state with
      | .future => (.early (minutesToOpen w.start (rideProfile s r).early (minuteNow s)), s)
      | .redeemable => (.redeemed x.party, redeemFromWindow c r k w x s)
      | .past => (.expired, s)
      | .lost => if rideRuns (rideState s r) then (.redeemedFlex x.party, redeemFromWindow c r k w x s)
        else (.stopped (rideState s r), s) := by
  simp only [redemptionClaim, pass, place, window, holder] <;> rfl

theorem redemptionClaim_flex {p : Pass} {x : Holder} (pass : passOf c r s.guests = some p) (place : p.place = .flex)
    (holder : holderIn c (look s.calendar.flex r) = some x) : redemptionClaim c r s =
      if rideRuns (rideState s r) then (.redeemedFlex x.party, redeemFromFlex c r s) else (.stopped (rideState s r), s) := by
  simp only [redemptionClaim, pass, place, holder]

theorem rideRuns_iff {st : RideState} : rideRuns st = true ↔ st = .up ∨ st = .suspect := by
  cases st <;> simp [rideRuns]

end JudgeMerge

/-- Settles O38: the tap passes R99, and the redemption claim decides its verdict. -/
theorem mergeTapsJudged : Obligations.MergeTapsJudged := by
  unfold Obligations.MergeTapsJudged
  intro e rest i mode c h tag s head body merge someone atMost owned day notZero notOnes on r verdict refused admitted flexed
    running
  let s1 : State := { s with fieldIntake := rest }
  have valid : validCredential c = true := validCredential_iff.2 ⟨notZero, notOnes⟩
  have answer {v : Verdict} {t : State} (judged : judgeMerge c r s1 = (v, t)) :
      exec .tap s = .next (verdict v.result v.party v.minutes t) :=
    (exec_tap_of_fieldHead head body).trans (congrArg _ (takeTap_of_judgeTap (s := s1) tag someone atMost owned
      ((judgeTap_passMerge (s := s1) (h := h) (time := entryTime e s1) merge day valid on).trans judged)))
  have refuse {x : Redemption} (claim : redemptionClaim c r s1 = (x, s1)) (none : admittedParty x = none)
      (party : (verdictOf x).party = .none) : refused (verdictOf x).result (verdictOf x).minutes := by
    have answers := answer (judgeMerge_refused claim none)
    rw [party] at answers
    exact answers
  have stops {x : Redemption} {t : State} (stopped : rideState s r = .down ∨ rideState s r = .closed)
      (claim : redemptionClaim c r s1 = if rideRuns (rideState s1 r) then (x, t) else (.stopped (rideState s1 r), s1)) :
      redemptionClaim c r s1 = (.stopped (rideState s r), s1) := by
    refine claim.trans (if_neg fun runs => ?_)
    have runs : rideState s r = .up ∨ rideState s r = .suspect := rideRuns_iff.1 runs
    rcases stopped with h | h <;> rw [h] at runs <;> simp at runs
  refine ⟨fun none => ?_, fun p k w x pass place window holder => ?_, fun p x pass place holder => ?_⟩
  · refine refuse (x := .noPass) ?_ rfl rfl
    have absent : passOf c r s1.guests = .none := none
    rw [redemptionClaim, absent]
  · intro w' redeemed
    have claim := redemptionClaim_window (s := s1) pass place window holder
    have same : x.credential = c := holderIn_credential holder
    have leaves : redeemFromWindow c r k w x s1 = { s1 with calendar := redeemed, guests := dropPass c r s.guests } := by
      rw [redeemFromWindow, redeemOut, same]
      rfl
    refine ⟨fun future => ?_, fun redeemable => ?_, fun past => ?_, fun lost runs => ?_, fun lost down => ?_,
      fun lost closed => ?_⟩
    · intro early
      have tooEarly : redemptionClaim c r s1 = (.early (minutesToOpen w.start early (minuteNow s)), s1) := by
        rw [claim, future]
        rfl
      have refuses := refuse tooEarly rfl rfl
      refine ⟨fun d positive time => ?_, fun time => ?_, fun time => ?_⟩
      · have minutes : minutesToOpen w.start early (minuteNow s) = d := by
          unfold minutesToOpen
          omega
        exact minutes ▸ refuses
      · have minutes : minutesToOpen w.start early (minuteNow s) = 1 := by
          unfold minutesToOpen
          omega
        exact minutes ▸ refuses
      · have minutes : minutesToOpen w.start early (minuteNow s) = 1 := by
          unfold minutesToOpen
          omega
        exact minutes ▸ refuses
    · rw [redeemable, leaves] at claim
      exact answer (judgeMerge_admitted claim rfl)
    · rw [past] at claim
      exact refuse claim rfl rfl
    · rw [lost, leaves] at claim
      exact answer (judgeMerge_admitted (claim.trans (if_pos (rideRuns_iff.2 runs))) rfl)
    · rw [lost] at claim
      have claimed := stops (.inl down) claim
      rw [show rideState s r = .down from down] at claimed
      exact refuse claimed rfl rfl
    · rw [lost] at claim
      have claimed := stops (.inr closed) claim
      rw [show rideState s r = .closed from closed] at claimed
      exact refuse claimed rfl rfl
  · have claim := redemptionClaim_flex (s := s1) pass place holder
    refine ⟨fun runs => ?_, fun down => ?_, fun closed => ?_⟩
    · exact answer (judgeMerge_admitted (claim.trans (if_pos (rideRuns_iff.2 runs))) rfl)
    · have claimed := stops (.inl down) claim
      rw [show rideState s r = .down from down] at claimed
      exact refuse claimed rfl rfl
    · have claimed := stops (.inr closed) claim
      rw [show rideState s r = .closed from closed] at claimed
      exact refuse claimed rfl rfl

end Sys2Proof.Machine
end

section
/-! PROOFS. The Standby Tally Unit's hand-offs (O39). -/

namespace Sys2Proof.Machine

/-! ## Standby hand-offs (R135, R136) -/

section JoinMarks

variable {h t : Nat} {ms : List Mark} {m : Mark}

/-- The newest mark is young and has room. -/
theorem joinMarks_joins (joins : t - m.entry < 30 ∧ m.count + h ≤ 255) :
    joinMarks h t (ms ++ [m]) = (ms ++ [⟨m.entry, m.count + h⟩], 0) := by
  simp only [joinMarks, List.getLast?_append_of_ne_nil _ (List.cons_ne_nil _ _), List.getLast?_singleton,
    List.dropLast_concat]
  exact if_pos joins

theorem joinMarks_appends (apart : ¬(t - m.entry < 30 ∧ m.count + h ≤ 255)) (room : (ms ++ [m]).length < 256) :
    joinMarks h t (ms ++ [m]) = (ms ++ [m] ++ [⟨max t m.entry, h⟩], 0) := by
  simp only [joinMarks, List.getLast?_append_of_ne_nil _ (List.cons_ne_nil _ _), List.getLast?_singleton,
    List.dropLast_concat]
  exact (if_neg apart).trans (if_pos room)

/-- The list is full: the newest mark takes what brings it to 255. -/
theorem joinMarks_saturates (apart : ¬(t - m.entry < 30 ∧ m.count + h ≤ 255)) (full : 256 ≤ (ms ++ [m]).length) :
    joinMarks h t (ms ++ [m]) =
      (ms ++ [⟨m.entry, m.count + min h (255 - m.count)⟩], h - min h (255 - m.count)) := by
  simp only [joinMarks, List.getLast?_append_of_ne_nil _ (List.cons_ne_nil _ _), List.getLast?_singleton,
    List.dropLast_concat]
  exact (if_neg apart).trans (if_neg (Nat.not_lt.2 full))

end JoinMarks

section TakeStandby

variable {h : StandbyHandoff} {s : State}

theorem takeStandby_night (night : inDay s.day.phase = false) : takeStandby h s = s := by
  rw [takeStandby, night]
  rfl

/-- All guests of the hand-off are counted. -/
theorem takeStandby_counted {marks : List Mark} (day : inDay s.day.phase = true)
    (joined : joinMarks h.headCount h.time (look s.tallies h.ride).marks = (marks, 0)) :
    takeStandby h s =
      { s with tallies := put s.tallies h.ride { look s.tallies h.ride with marks := marks } } := by
  simp only [takeStandby, day, if_true, joined, Nat.lt_irrefl, decide_false, Bool.or_false, if_false]

theorem takeStandby_uncounted {marks : List Mark} {n : Nat} (day : inDay s.day.phase = true)
    (joined : joinMarks h.headCount h.time (look s.tallies h.ride).marks = (marks, n)) (beyond : 0 < n) :
    takeStandby h s = flagged { s with
      tallies := put s.tallies h.ride { look s.tallies h.ride with marks := marks, saturated := true } }
      [.tallySaturated] := by
  simp only [takeStandby, day, if_true, joined, beyond, decide_true, Bool.or_true]
  rfl

end TakeStandby

theorem exec_standbyHandoff {i : Nat} {h : StandbyHandoff} {s : State} (high : s.resetLow = false)
    (found : s.out.standbys[i]? = some h) : exec (.standbyHandoff i) s =
      .next (takeStandby h { s with out := { s.out with standbys := s.out.standbys.eraseIdx i } }) := by
  show execStandbyHandoff i s = _
  rw [execStandbyHandoff, event_taken _ high, found]

/-! ## Dispatch hand-offs (R137, R138) -/

/-- The observation that emptying marks leaves: that of the newest of them. -/
def observedOf (t : Nat) (gone : List Mark) (obs : Option ObservedWait) : Option ObservedWait :=
  match gone.getLast? with
  | some g => some ⟨(t - g.entry + 59) / 60, t⟩
  | none => obs

theorem observedOf_cons (t : Nat) (m : Mark) (gone : List Mark) (obs : Option ObservedWait) :
    observedOf t (m :: gone) obs = observedOf t gone (some ⟨(t - m.entry + 59) / 60, t⟩) := by
  cases gone with
  | nil => rfl
  | cons g gs => rfl

/-- Marks that the boarders empty go, oldest first. -/
theorem boardMarks_empties (t : Nat) (gone left : List Mark) (n : Nat) (obs : Option ObservedWait)
    (counts : ∀ m ∈ gone, 1 ≤ m.count) (enough : (gone.map Mark.count).sum ≤ n) :
    boardMarks t n (gone ++ left) obs =
      boardMarks t (n - (gone.map Mark.count).sum) left (observedOf t gone obs) := by
  induction gone generalizing n obs with
  | nil => rfl
  | cons m gone ih =>
    rw [List.map_cons, List.sum_cons] at enough ⊢
    have nonempty : 1 ≤ m.count := counts m List.mem_cons_self
    have step : boardMarks t n (m :: (gone ++ left)) obs =
        boardMarks t (n - m.count) (gone ++ left) (some ⟨ceilDiv (markAge t m) 60, t⟩) := by
      rw [boardMarks, if_neg (by omega), if_pos (by omega)]
    rw [List.cons_append, step, ih _ _ (fun x hx => counts x (List.mem_cons_of_mem _ hx)) (by omega), Nat.sub_sub,
      observedOf_cons]
    rfl

/-- Fewer boarders than the oldest mark has. -/
theorem boardMarks_part (t : Nat) {n : Nat} {m : Mark} (ms : List Mark) (obs : Option ObservedWait) (few : n < m.count) :
    boardMarks t n (m :: ms) obs = (⟨m.entry, m.count - n⟩ :: ms, obs, 0) := by
  rw [boardMarks]
  split
  · next noneLeft => rw [noneLeft, Nat.sub_zero]
  · rw [if_neg (Nat.not_le.2 few)]

section TakeDispatch

variable {h : DispatchHandoff} {s : State}

theorem takeDispatch_night (night : inDay s.day.phase = false) : takeDispatch h s = s := by
  rw [takeDispatch, night]
  rfl

theorem addToRate_eq (n : Nat) (buckets : List Nat) : addToRate n buckets =
    match buckets with
    | b :: bs => min 65535 (b + n) :: bs
    | [] => [] := by
  cases buckets <;> rfl

/-- What the boarding of a hand-off comes to. -/
theorem takeDispatch_boards {marks : List Mark} {obs : Option ObservedWait} {unseen : Nat}
    (day : inDay s.day.phase = true)
    (boarded : boardMarks h.time h.standbyPart (look s.tallies h.ride).marks (look s.tallies h.ride).lastObserved =
      (marks, obs, unseen)) :
    takeDispatch h s = { s with
      tallies := put s.tallies h.ride { look s.tallies h.ride with
        marks := marks
        lastObserved := obs
        buckets := addToRate h.standbyPart (look s.tallies h.ride).buckets
        saturated := (look s.tallies h.ride).saturated && decide (256 ≤ marks.length) }
      management := { s.management with counts := upd s.management.counts h.ride fun c =>
        { c with unseenBoarders := min 16777215 (c.unseenBoarders + unseen) } } } := by
  simp only [takeDispatch, day, if_true, boarded]
  rfl

end TakeDispatch

theorem exec_dispatchHandoff {h : DispatchHandoff} {before after : List DispatchHandoff} {s : State}
    (high : s.resetLow = false) (dispatches : s.out.dispatches = before ++ h :: after)
    (others : ∀ x ∈ before, x.ride ≠ h.ride) : exec (.dispatchHandoff h.ride) s =
      .next (takeDispatch h { s with out := { s.out with dispatches := before ++ after } }) := by
  have taken : takeFirst (fun x => x.ride == h.ride) s.out.dispatches = some (h, before ++ after) :=
    takeFirst_eq_some.2 ⟨before, after, dispatches, fun x hx => by simpa using others x hx, by simp, rfl⟩
  show execDispatchHandoff h.ride s = _
  rw [execDispatchHandoff, event_taken _ high, taken]

/-- Settles O39: the marks joined by cases on the newest mark; the marks emptied by induction. -/
theorem tallyHandoffs : Obligations.TallyHandoffs := by
  unfold Obligations.TallyHandoffs
  refine ⟨fun i h s high found => ?_, fun r h before after s high dispatches ride others => ?_⟩
  · intro s1 y becomes
    rw [exec_standbyHandoff high found]
    refine ⟨fun night => congrArg _ (takeStandby_night (s := s1) night), fun day empty => ?_, fun ms m day marks => ?_⟩
    · refine congrArg _ (takeStandby_counted (s := s1) day ?_)
      show joinMarks _ _ y.marks = _
      rw [empty]
      rfl
    · intro joins counted
      have allCounted {l : List Mark} (joined : joinMarks h.headCount h.time (ms ++ [m]) = (l, 0)) :
          takeStandby h s1 = becomes l :=
        takeStandby_counted (s := s1) day ((congrArg _ marks).trans joined)
      refine ⟨fun young => congrArg _ (allCounted (joinMarks_joins young)), fun apart room => ?_, fun apart full fits => ?_,
        fun apart full beyond => ?_⟩
      · rw [marks] at room ⊢
        exact congrArg _ (allCounted (joinMarks_appends apart room))
      · rw [marks] at full
        have joined := joinMarks_saturates apart full
        rw [Nat.sub_eq_zero_of_le fits] at joined
        exact congrArg _ (allCounted joined)
      · rw [marks] at full
        exact congrArg _ (takeStandby_uncounted (s := s1) day ((congrArg _ marks).trans (joinMarks_saturates apart full))
          (Nat.sub_pos_of_lt beyond))
  · subst ride
    intro s1 y
    rw [exec_dispatchHandoff high dispatches others]
    refine ⟨fun night => congrArg _ (takeDispatch_night (s := s1) night), fun gone left day marks counts => ?_⟩
    intro n becomes
    have boards {l : List Mark} {unseen : Nat} (enough : n ≤ h.standbyPart)
        (boarded : boardMarks h.time (h.standbyPart - n) left (observedOf h.time gone y.lastObserved) =
          (l, observedOf h.time gone y.lastObserved, unseen)) : takeDispatch h s1 = becomes l unseen := by
      have goneCounts : ∀ m ∈ gone, 1 ≤ m.count := fun m hm => counts m (marks ▸ List.mem_append_left _ hm)
      have all := boardMarks_empties h.time gone left h.standbyPart y.lastObserved goneCounts enough
      rw [← marks] at all
      rw [takeDispatch_boards (s := s1) day (all.trans boarded), addToRate_eq]
      rfl
    refine ⟨fun noneLeft enough => congrArg _ (boards enough ?_), fun m ms split enough few => congrArg _ (boards enough ?_)⟩
    · rw [noneLeft]
      rfl
    · have fewer : h.standbyPart - n < m.count := by omega
      rw [split, boardMarks_part _ _ _ fewer, show m.count - (h.standbyPart - n) = n + m.count - h.standbyPart by omega]

end Sys2Proof.Machine
end

section
/-! PROOFS. Signboards: a change for a board, the contents of frames and BOARD_MODE (O41). -/

namespace Sys2Proof.Machine

/-! ## A due frame (R177, R181) -/

section Due

variable {b : BoardIx} {c : BoardContent} {s : State}

/-- A frame may be written, in the statements' words. -/
def SpacingFree (x : Board) : Prop := x.spacing = none ∨ ∃ n, x.spacing = some n ∧ 2 ≤ n

theorem frameDue_nothing (nothing : (look s.boardTable b).address = 0 ∨ (look s.boards b).deferred = true) :
    frameDue b c s = s := by
  rcases nothing with unused | deferred
  · have isUnused : boardUsed (boardEntry s b) = false := bne_eq_false_iff_eq.2 unused
    rw [frameDue, isUnused]
    rfl
  · exact frameDue_deferred deferred

variable {x : Board}

/-- A frame is due for a board whose state was set to `x`. -/
theorem frameDue_of_put (used : (look s.boardTable b).address ≠ 0) (due : x.deferred = false) :
    (SpacingFree x → s.fieldPort.partQueue.length < 96 → frameDue b c { s with boards := put s.boards b x } = { s with
      fieldPort := { s.fieldPort with
        partQueue := s.fieldPort.partQueue ++ [⟨(look s.boardTable b).address, .boardFrame c⟩] }
      boards := put s.boards b
        { x with lastSent := some c, spacing := some 0, refresh := 0, pending := false, deferred := false } }) ∧
    (SpacingFree x → 96 ≤ s.fieldPort.partQueue.length → frameDue b c { s with boards := put s.boards b x } =
      { s with boards := put s.boards b { x with refresh := 0, pending := false, deferred := true } }) ∧
    (¬SpacingFree x → frameDue b c { s with boards := put s.boards b x } =
      { s with boards := put s.boards b { x with pending := true } }) := by
  let s1 : State := { s with boards := put s.boards b x }
  have here : look s1.boards b = x := look_put_same ..
  have step := frameDue_due (b := b) (c := c) (s := s1) used (by rw [here, due])
  rw [here] at step
  refine ⟨fun free room => ?_, fun free full => ?_, fun held => ?_⟩
  · rw [step, if_pos (spacingAllows_iff.2 free), writeBoard_room (s := s1) room, here, put_put]
  · rw [step, if_pos (spacingAllows_iff.2 free), writeBoard_full (s := s1) full, here, put_put]
  · rw [step, if_neg fun allows => held (spacingAllows_iff.1 allows), changeBoard, upd, here, put_put]

end Due

/-! ## A change for a board (R179) -/

/-- A change of the live content calls for a frame. -/
def ChangeDue (s : State) (b : BoardIx) : Prop :=
  (look s.boards b).mode = .live ∧ (look s.boards b).pending = false ∧ (look s.boards b).deferred = false ∧
    (look s.boardTable b).address ≠ 0 ∧ (look s.boards b).lastSent ≠ some (liveContent s b)

section BoardChanged

variable {b : BoardIx} {s : State}

theorem boardChanged_nothing (nothing : ¬ChangeDue s b) : boardChanged b s = s := by
  rw [boardChanged]
  split
  · next calls =>
    obtain ⟨live, pending, other⟩ := calls
    apply frameDue_nothing
    by_contra usable
    rw [not_or, Bool.not_eq_true] at usable
    exact nothing ⟨live, pending, usable.2, usable.1, other⟩
  · rfl

theorem boardChanged_due (due : ChangeDue s b) : boardChanged b s = frameDue b (liveContent s b) s := by
  obtain ⟨live, pending, deferred, used, other⟩ := due
  exact if_pos ⟨live, pending, other⟩

/-- What a due change comes to. -/
theorem boardChanged_of_due (due : ChangeDue s b) :
    (SpacingFree (look s.boards b) → s.fieldPort.partQueue.length < 96 → boardChanged b s = { s with
      fieldPort := { s.fieldPort with
        partQueue := s.fieldPort.partQueue ++ [⟨(look s.boardTable b).address, .boardFrame (liveContent s b)⟩] }
      boards := put s.boards b { look s.boards b with
        lastSent := some (liveContent s b), spacing := some 0, refresh := 0, pending := false, deferred := false } }) ∧
    (SpacingFree (look s.boards b) → 96 ≤ s.fieldPort.partQueue.length → boardChanged b s =
      { s with boards := put s.boards b { look s.boards b with refresh := 0, pending := false, deferred := true } }) ∧
    (¬SpacingFree (look s.boards b) → boardChanged b s =
      { s with boards := put s.boards b { look s.boards b with pending := true } }) := by
  have ⟨live, pending, deferred, used, other⟩ := due
  have outcomes := frameDue_of_put (c := liveContent s b) used deferred
  have same : ({ s with boards := put s.boards b (look s.boards b) } : State) = s := by rw [put_look]
  rw [same] at outcomes
  rw [boardChanged_due due]
  exact outcomes

end BoardChanged

/-! ## Contents (R176, R178) -/

section Content

variable {b : BoardIx} {s : State}

theorem inRange_iff {e : BoardEntry} {r : Ride} :
    inRange e r = true ↔ e.firstRide ≤ r.val ∧ r.val < e.firstRide + e.rideCount := by
  rw [inRange, Bool.and_eq_true, decide_eq_true_iff, decide_eq_true_iff]

/-- The rides that live content shows: those of the range that are not held OFF. -/
theorem filter_shown (s : State) (e : BoardEntry) :
    ((indices 48).filter (inRange e)).filter (fun r => decide (look s.heldValues r ≠ .off)) =
      (List.finRange 48).filter fun r =>
        decide (e.firstRide ≤ r.val ∧ r.val < e.firstRide + e.rideCount ∧ look s.heldValues r ≠ .off) := by
  rw [List.filter_filter]
  refine List.filter_congr fun r _ => ?_
  rw [Bool.eq_iff_iff, Bool.and_eq_true, inRange_iff, decide_eq_true_iff, decide_eq_true_iff]
  tauto

theorem alertOf_eq (n : Nat) (v : Posted) : alertOf n v =
    match v with
    | .wait m => decide (0 < n ∧ n ≤ m)
    | .over => decide (0 < n)
    | _ => false := by
  cases v
  case wait m => exact (Bool.decide_and ..).symm
  all_goals rfl

variable (mode : (look s.boards b).mode = .hold)
include mode

theorem modeContent_hold : modeContent s b = (look s.boards b).frozen.getD .blank := by
  simp only [modeContent, boardOf, mode]

end Content

section ModeContent

variable {b : BoardIx} {s : State}

theorem modeContent_live (mode : (look s.boards b).mode = .live) : modeContent s b = liveContent s b := by
  simp only [modeContent, boardOf, mode]

theorem modeContent_blank (mode : (look s.boards b).mode = .blank) : modeContent s b = .blank := by
  simp only [modeContent, boardOf, mode]

end ModeContent

/-! ## BOARD_MODE (R178) -/

section Mode

variable {b : BoardIx} {code : Nat} {m : BoardModeKind} {s : State}

theorem boardModeOf_eq_none {code : Nat} : boardModeOf code = none ↔ code ∉ [1, 2, 3] := by
  unfold boardModeOf
  split <;> simp_all

theorem boardModeOf_of_mem (known : (code, m) ∈ [(1, BoardModeKind.live), (2, .hold), (3, .blank)]) :
    boardModeOf code = some m := by
  simp only [List.mem_cons, Prod.mk.injEq, List.not_mem_nil, or_false] at known
  rcases known with ⟨rfl, rfl⟩ | ⟨rfl, rfl⟩ | ⟨rfl, rfl⟩ <;> rfl

theorem boardMode_badCode (unknown : code ∉ [1, 2, 3]) : boardMode b.val code s = answered .badValue s := by
  simp only [boardMode, index?_val, boardModeOf_eq_none.2 unknown]

theorem boardMode_known (known : boardModeOf code = some m) : boardMode b.val code s =
    if s.day.phase = .checking then answered .busy s
    else if (look s.boards b).mode = m then answered .done s
    else answered .done (changeMode b m s) := by
  simp only [boardMode, index?_val, known]
  rfl

theorem changeMode_hold : changeMode b .hold s = { s with
    boards := put s.boards b
      { look s.boards b with mode := .hold, frozen := (look s.boards b).lastSent, pending := false } } := rfl

theorem changeMode_live : changeMode b .live s = frameDue b (liveContent s b)
    { s with boards := put s.boards b { look s.boards b with mode := .live, frozen := none } } := rfl

theorem changeMode_live_nothing (nothing : (look s.boardTable b).address = 0 ∨ (look s.boards b).deferred = true) :
    changeMode b .live s =
      { s with boards := put s.boards b { look s.boards b with mode := .live, frozen := none } } := by
  rw [changeMode_live, frameDue_nothing]
  rw [look_put_same]
  exact nothing

theorem changeMode_blank_due (used : (look s.boardTable b).address ≠ 0) (deferred : (look s.boards b).deferred = false)
    (other : (look s.boards b).lastSent ≠ some .blank) : changeMode b .blank s = frameDue b .blank
      { s with boards := put s.boards b { look s.boards b with mode := .blank, frozen := none } } := by
  refine if_pos ?_
  rw [Bool.and_eq_true, Bool.and_eq_true, decide_eq_true_iff]
  exact ⟨⟨bne_iff_ne.2 used, congrArg not deferred⟩, other⟩

theorem changeMode_blank_nothing (nothing : (look s.boardTable b).address = 0 ∨ (look s.boards b).deferred = true ∨
    (look s.boards b).lastSent = some .blank) : changeMode b .blank s =
      { s with boards := put s.boards b { look s.boards b with mode := .blank, frozen := none, pending := false } } := by
  have stays : changeMode b .blank s = changeBoard b (fun x => { x with pending := false })
      (changeBoard b (fun x => { x with mode := .blank, frozen := none }) s) := by
    refine if_neg fun due => ?_
    rw [Bool.and_eq_true, Bool.and_eq_true, decide_eq_true_iff] at due
    obtain ⟨⟨used, deferred⟩, other⟩ := due
    rcases nothing with unused | isDeferred | blank
    · exact bne_iff_ne.1 used unused
    · rw [boardOf, isDeferred] at deferred
      cases deferred
    · exact other blank
  rw [stays, changeBoard, changeBoard, upd_upd]

end Mode

/-- Settles O41: a change for a board, the content of a frame by its mode, and BOARD_MODE judged. -/
theorem signboards : Obligations.Signboards := by
  unfold Obligations.Signboards
  refine ⟨fun b s => ?_, fun b s => ?_, fun e rest index code s head command => ?_⟩
  · intro x e c free due
    have outcomes (isDue : due) := boardChanged_of_due (s := s) (b := b) isDue
    exact ⟨boardChanged_nothing, fun isDue => (outcomes isDue).1, fun isDue => (outcomes isDue).2.1,
      fun isDue => (outcomes isDue).2.2⟩
  · intro x e shown alert
    refine ⟨?_, modeContent_live, fun c hold frozen => ?_, fun hold frozen => ?_, modeContent_blank⟩
    · show BoardContent.lines (liveLines s (boardEntry s b)) = _
      rw [liveLines, filter_shown]
      refine congrArg _ (List.map_congr_left fun r _ => ?_)
      rw [alertOf_eq]
      rfl
    · rw [modeContent_hold hold, show (look s.boards b).frozen = some c from frozen]
      rfl
    · rw [modeContent_hold hold, show (look s.boards b).frozen = none from frozen]
      rfl
  · intro s1 answers
    have answer {x : Answer × State} (acts : boardMode index code s1 = x) :
        exec .boardMode s = .next (mgmtFinish [mgmtReply e 0x0A x.1] x.2) := exec_boardMode_of_head head command acts
    refine ⟨fun beyond => answer (x := answered .badIndex s1) (by rw [boardMode, index?_beyond beyond]), fun b here => ?_⟩
    subst here
    intro x a free becomes due
    refine ⟨fun unknown => answer (boardMode_badCode unknown), fun m member => ?_⟩
    have judged := boardMode_known (b := b) (s := s1) (boardModeOf_of_mem member)
    refine ⟨fun checking => answer (judged.trans (if_pos checking)), fun ready present => ?_, fun ready other => ?_⟩
    · exact answer (judged.trans ((if_neg ready).trans (if_pos present)))
    have changes {u : State} (acts : changeMode b m s1 = u) : answers .done u := by
      rw [← acts]
      exact answer (judged.trans ((if_neg ready).trans (if_neg other)))
    have framed {x' : Board} {c : BoardContent} (used : a ≠ 0) (notDeferred : x'.deferred = false)
        (spacing : x'.spacing = x.spacing)
        (frame : changeMode b m s1 = frameDue b c { s1 with boards := put s1.boards b x' }) : due x' c := by
      obtain ⟨room, full, held⟩ := frameDue_of_put (c := c) (s := s1) used notDeferred
      have sameFree : SpacingFree x' ↔ free := by rw [SpacingFree, spacing]
      exact ⟨fun isFree hasRoom => changes (frame.trans (room (sameFree.2 isFree) hasRoom)),
        fun isFree isFull => changes (frame.trans (full (sameFree.2 isFree) isFull)),
        fun notFree => changes (frame.trans (held fun isFree => notFree (sameFree.1 isFree)))⟩
    refine ⟨?_, ?_, ?_, ?_, ?_⟩
    · rintro rfl
      exact changes changeMode_hold
    · rintro rfl used notDeferred
      exact framed used notDeferred rfl changeMode_live
    · rintro rfl nothing
      exact changes (changeMode_live_nothing nothing)
    · rintro rfl used notDeferred notBlank
      exact framed used notDeferred rfl (changeMode_blank_due (s := s1) used notDeferred notBlank)
    · rintro rfl nothing
      exact changes (changeMode_blank_nothing nothing)

end Sys2Proof.Machine
end

section
/-! PROOFS. Posted and held values: the state and posted-value hand-offs, and how a changed held value reaches the boards
(O40). -/

namespace Sys2Proof.Machine

/-! ## Posted values (R146, R147) -/

/-- The change of one tally hands on its posted value if that differs. -/
theorem postedChanges_put (ys : Table 48 Tally) (r : Ride) (y : Tally) :
    postedChanges ys (put ys r y) = if (look ys r).posted = y.posted then [] else [(r, y.posted)] := by
  have differs (q : Ride) : (look ys q).posted ≠ (look (put ys r y) q).posted ↔ r = q ∧ (look ys r).posted ≠ y.posted := by
    rw [look_put]
    split
    · next same => rw [← same]; exact (and_iff_right rfl).symm
    · next other => exact ⟨fun no => absurd rfl no, fun both => absurd both.1 other⟩
  rw [postedChanges]
  split
  · next same =>
    rw [List.filter_eq_nil_iff.2 fun q _ => ?_, List.map_nil]
    rw [decide_eq_true_iff, differs]
    exact fun both => both.2 same
  · next changed =>
    have only : ((indices 48).filter fun q => decide ((look ys q).posted ≠ (look (put ys r y) q).posted)) = [r] := by
      calc ((indices 48).filter fun q => decide ((look ys q).posted ≠ (look (put ys r y) q).posted))
          = (List.finRange 48).filter (· = r) := by
            refine List.filter_congr fun q _ => ?_
            rw [decide_eq_decide, differs, and_iff_left changed, eq_comm]
        _ = [r] := by
            rw [List.filter_eq, List.count_eq_one_of_mem (List.nodup_finRange 48) (List.mem_finRange r),
              List.replicate_one]
    rw [only, List.map_singleton, look_put_same]

theorem setTallies_put (r : Ride) (y : Tally) (s : State) : setTallies (put s.tallies r y) s = { s with
    tallies := put s.tallies r y
    out := { s.out with
      posted := if (look s.tallies r).posted = y.posted then s.out.posted else s.out.posted ++ [(r, y.posted)] } } := by
  rw [setTallies, postedChanges_put]
  split
  · rw [List.append_nil]
  · rfl

section TakeTallyState

variable {r : Ride} {st : RideState} {s : State}

theorem takeTallyState_night (night : inDay s.day.phase = false) : takeTallyState r st s = s := by
  rw [takeTallyState, night]
  rfl

variable (day : inDay s.day.phase = true)
include day

theorem takeTallyState_up : takeTallyState r .up s =
    setTallies (put s.tallies r { look s.tallies r with
      estimate := currentEstimate s r (look s.tallies r)
      posted := postedForUp (look s.rideTable r).postingCurve (currentEstimate s r (look s.tallies r)) }) s := if_pos day

/-- A state other than UP leaves the estimate. -/
theorem takeTallyState_stopped (stopped : st ≠ .up) : takeTallyState r st s =
    setTallies (put s.tallies r { look s.tallies r with
      posted := postedFor st (look s.rideTable r).postingCurve (look s.tallies r).estimate }) s := by
  rw [takeTallyState, if_pos day]
  simp only [stopped, if_false]
  rfl

end TakeTallyState

section Exec

variable {r : Ride} {s : State} (high : s.resetLow = false)
include high

theorem exec_tallyStateHandoff {st : RideState} {before after : List (Ride × RideState)}
    (states : s.out.tallyStates = before ++ (r, st) :: after) (others : ∀ x ∈ before, x.1 ≠ r) :
    exec (.tallyStateHandoff r) s =
      .next (takeTallyState r st { s with out := { s.out with tallyStates := before ++ after } }) := by
  have taken : takeFirst (fun x => x.1 == r) s.out.tallyStates = some ((r, st), before ++ after) :=
    takeFirst_eq_some.2 ⟨before, after, states, fun x hx => by simpa using others x hx, by simp, rfl⟩
  show execTallyStateHandoff r s = _
  rw [execTallyStateHandoff, event_taken _ high, taken]

theorem exec_postedValueHandoff {v : Posted} {before after : List (Ride × Posted)} (order : List BoardIx)
    (posted : s.out.posted = before ++ (r, v) :: after) (others : ∀ x ∈ before, x.1 ≠ r) :
    exec (.postedValueHandoff r order) s =
      .next (heldValueSet r v order { s with out := { s.out with posted := before ++ after } }) := by
  have taken : takeFirst (fun x => x.1 == r) s.out.posted = some ((r, v), before ++ after) :=
    takeFirst_eq_some.2 ⟨before, after, posted, fun x hx => by simpa using others x hx, by simp, rfl⟩
  show execPostedValueHandoff r order s = _
  rw [execPostedValueHandoff, event_taken _ high, taken]
  rfl

theorem exec_boardStateHandoff {before after : List Ride} (order : List BoardIx)
    (states : s.out.boardStates = before ++ r :: after) (others : r ∉ before) :
    exec (.boardStateHandoff r order) s =
      .next (takeBoardState r order { s with out := { s.out with boardStates := before ++ after } }) := by
  have taken : takeFirst (fun x => x == r) s.out.boardStates = some (r, before ++ after) :=
    takeFirst_eq_some.2 ⟨before, after, states, fun x hx => beq_eq_false_iff_ne.2 fun same => others (same ▸ hx), by simp,
      rfl⟩
  show execBoardStateHandoff r order s = _
  rw [execBoardStateHandoff, event_taken _ high, taken]

end Exec

/-! ## Held values (R175, R179) -/

section HeldValues

variable {r : Ride} {v : Posted} {order : List BoardIx} {b : BoardIx} {s : State}

theorem heldValueSet_same (same : look s.heldValues r = v) : heldValueSet r v order s = s := if_pos same

theorem heldValueSet_changed (changed : look s.heldValues r ≠ v) : heldValueSet r v order s =
    boardsChanged order (fun b => inRange (look s.boardTable b) r) { s with heldValues := put s.heldValues r v } :=
  if_neg changed

/-- The boards that a change reaches, in the order in which it reaches them. -/
theorem boardsChanged_eq (p : BoardIx → Bool) : boardsChanged order p s =
    ((order ++ (List.finRange 64).filter fun b => decide (b ∉ order)).filter p).foldl (fun u b => boardChanged b u) s := by
  have rest : ((indices 64).filter fun b => !order.contains b) = (List.finRange 64).filter fun b => decide (b ∉ order) :=
    List.filter_congr fun b _ => by rw [decide_not, List.contains_eq_mem]
  rw [boardsChanged, rest]

theorem takeBoardState_eq : takeBoardState r order s =
    match (look s.rides r).state with
    | .up => s
    | .down => heldValueSet r .down order s
    | .closed => heldValueSet r .closed order s
    | .suspect => heldValueSet r .paused order s
    | .off => heldValueSet r .off order s := by
  rw [takeBoardState, rideState]
  cases (look s.rides r).state <;> rfl

/-- A second change for the same board finds it sent, deferred or pending. -/
theorem boardChanged_twice (b : BoardIx) (s : State) : boardChanged b (boardChanged b s) = boardChanged b s := by
  by_cases due : ChangeDue s b
  · obtain ⟨room, full, held⟩ := boardChanged_of_due due
    refine boardChanged_nothing ?_
    by_cases free : SpacingFree (look s.boards b)
    · by_cases hasRoom : s.fieldPort.partQueue.length < 96
      · rw [room free hasRoom]
        rintro ⟨_, _, _, _, other⟩
        rw [look_put_same] at other
        exact other rfl
      · rw [full free (Nat.not_lt.1 hasRoom)]
        rintro ⟨_, _, deferred, _, _⟩
        rw [look_put_same] at deferred
        cases deferred
    · rw [held free]
      rintro ⟨_, pending, _, _, _⟩
      rw [look_put_same] at pending
      cases pending
  · rw [boardChanged_nothing due, boardChanged_nothing due]

theorem boardChanged_other {c : BoardIx} (other : c ≠ b) : look (boardChanged c s).boards b = look s.boards b := by
  by_cases due : ChangeDue s c
  · obtain ⟨room, full, held⟩ := boardChanged_of_due due
    by_cases free : SpacingFree (look s.boards c)
    · by_cases hasRoom : s.fieldPort.partQueue.length < 96
      · rw [room free hasRoom, look_put_other _ _ other]
      · rw [full free (Nat.not_lt.1 hasRoom), look_put_other _ _ other]
    · rw [held free, look_put_other _ _ other]
  · rw [boardChanged_nothing due]

theorem boardsFold_other {bs : List BoardIx} (absent : b ∉ bs) :
    look (bs.foldl (fun u c => boardChanged c u) s).boards b = look s.boards b := by
  induction bs generalizing s with
  | nil => rfl
  | cons c bs ih =>
    rw [List.mem_cons, not_or] at absent
    rw [List.foldl_cons, ih absent.2, boardChanged_other (Ne.symm absent.1)]

theorem boardsChanged_other {p : BoardIx → Bool} (unreached : p b = false) :
    look (boardsChanged order p s).boards b = look s.boards b := by
  refine boardsFold_other fun member => ?_
  rw [(List.mem_filter.1 member).2] at unreached
  cases unreached

/-- Setting a held value changes it, boards, and the FIELD part output queue, which it extends. -/
theorem heldValueSet_frame (r : Ride) (v : Posted) (order : List BoardIx) (s : State) :
    BoardsOnly { s with heldValues := put s.heldValues r v } (heldValueSet r v order s) := by
  by_cases same : look s.heldValues r = v
  · rw [heldValueSet_same same, ← same, put_look]
    exact BoardsOnly.refl s
  · rw [heldValueSet_changed same]
    exact boardsChanged_frame ..

theorem heldValueSet_other (outside : inRange (look s.boardTable b) r = false) :
    look (heldValueSet r v order s).boards b = look s.boards b := by
  by_cases same : look s.heldValues r = v
  · rw [heldValueSet_same same]
  · rw [heldValueSet_changed same]
    exact boardsChanged_other outside

end HeldValues

/-- Settles O40: the hand-offs by the state they carry or read, and the boards that a change reaches. -/
theorem postedAndHeldValues : Obligations.PostedAndHeldValues := by
  unfold Obligations.PostedAndHeldValues
  refine ⟨fun r st before after s high states others => ?_,
    fun r v before after order s high posted others => exec_postedValueHandoff high order posted others,
    fun r before after order s high states others => ?_, fun r v order s => ⟨heldValueSet_same, fun changed => ?_,
      boardsChanged_eq, fun b => boardChanged_twice b s, ?_⟩⟩
  · intro s1 y e becomes est
    rw [exec_tallyStateHandoff high states others]
    refine ⟨fun night => congrArg _ (takeTallyState_night (s := s1) night), fun day => ?_⟩
    have sets {y' : Tally} (taken : takeTallyState r st s1 = setTallies (put s1.tallies r y') s1) :
        takeTallyState r st s1 = becomes y' := taken.trans (setTallies_put r y' s1)
    refine ⟨?_, ?_, ?_, ?_⟩
    · rintro rfl
      exact congrArg _ (sets (takeTallyState_up day))
    all_goals
      rintro rfl
      exact congrArg _ (sets (takeTallyState_stopped day nofun))
  · intro s1 sets
    have taken : exec (.boardStateHandoff r order) s = .next _ :=
      (exec_boardStateHandoff high order states others).trans (congrArg _ takeBoardState_eq)
    refine ⟨fun state => ?_, fun state => ?_, fun state => ?_, fun state => ?_, fun state => ?_⟩
    all_goals
      refine taken.trans ?_
      simp only [state]
      rfl
  · rw [heldValueSet_changed changed, boardsChanged_eq]
    refine congrArg (List.foldl _ _) (List.filter_congr fun b _ => ?_)
    rw [Bool.eq_iff_iff, inRange_iff, decide_eq_true_iff]
  · obtain ⟨⟨q, x, set⟩, -⟩ := heldValueSet_frame r v order s
    refine ⟨_, rfl, ?_, ?_, fun b outside => heldValueSet_other ?_⟩
    · rw [set]
    · rw [set]
      exact ⟨q, rfl⟩
    · rw [← Bool.not_eq_true, inRange_iff]
      omega

end Sys2Proof.Machine
end

section
/-! PROOFS. Hand-offs to the Calendar (O42) and the Condition Monitor (O43). -/

namespace Sys2Proof.Machine

/-! ## State changes at the Calendar (R47, R48) -/

section CalendarState

variable {r : Ride} {st : RideState} {s : State}

theorem exec_calendarStateHandoff {before after : List (Ride × RideState)} (high : s.resetLow = false)
    (states : s.out.calendarStates = before ++ (r, st) :: after) (others : ∀ x ∈ before, x.1 ≠ r) :
    exec (.calendarStateHandoff r) s =
      .next (takeCalendarState r st { s with out := { s.out with calendarStates := before ++ after } }) := by
  have taken : takeFirst (fun x => x.1 == r) s.out.calendarStates = some ((r, st), before ++ after) :=
    takeFirst_eq_some.2 ⟨before, after, states, fun x hx => by simpa using others x hx, by simp, rfl⟩
  show execCalendarStateHandoff r s = _
  rw [execCalendarStateHandoff, event_taken _ high, taken]

/-- The items of the lost windows: those of the windows with holders. -/
theorem lostItems_eq (r : Ride) (ws : List Window) : lostItems r ws =
    (ws.zipIdx.filter fun x => decide (x.1.state = .redeemable ∧ x.1.holders ≠ [])).map fun x =>
      (⟨r, x.2, .displace⟩ : WorkItem) := by
  rw [lostItems]
  induction ws.zipIdx with
  | nil => rfl
  | cons x xs ih =>
    by_cases lost : x.1.state = .redeemable
    · by_cases empty : x.1.holders = []
      · simpa [lost, empty, itemFor] using ih
      · simpa [lost, empty, itemFor] using ih
    · simp [lost, ih]

theorem handItems_eq (items : List WorkItem) (s : State) : handItems items s =
    { s with out := { s.out with workItems := if items = [] then s.out.workItems else s.out.workItems ++ [items] } } := by
  cases items with
  | nil => rfl
  | cons i is => rfl

theorem takeCalendarState_running (down : st ≠ .down) (closed : st ≠ .closed) : takeCalendarState r st s = s :=
  if_neg (not_or.2 ⟨down, closed⟩)

theorem takeCalendarState_stopped (stopped : st = .down ∨ st = .closed) : takeCalendarState r st s =
    handItems (lostItems r (look s.calendar.windows r)) (changeWindows r (List.map loseRedeemable) s) := if_pos stopped

end CalendarState

/-! ## Recomputations (R40, R41, R158) -/

theorem exec_recomputation {h : RecomputationClaim} {before after : List RecomputationClaim} {s : State}
    (high : s.resetLow = false) (claims : s.out.recomputations = before ++ h :: after)
    (others : ∀ x ∈ before, x.ride ≠ h.ride) : exec (.recomputation h.ride) s =
      .next (takeRecomputation h { s with out := { s.out with recomputations := before ++ after } }) := by
  have taken : takeFirst (fun x => x.ride == h.ride) s.out.recomputations = some (h, before ++ after) :=
    takeFirst_eq_some.2 ⟨before, after, claims, fun x hx => by simpa using others x hx, by simp, rfl⟩
  show execRecomputation h.ride s = _
  rw [execRecomputation, event_taken _ high, taken]

/-- Settles O42: the lost windows with their items, and the recomputed windows. -/
theorem calendarHandoffs : Obligations.CalendarHandoffs := by
  unfold Obligations.CalendarHandoffs
  refine ⟨fun r st before after s high states others => ?_, fun r h before after s high claims ride others => ?_⟩
  · intro s1 ws items
    rw [exec_calendarStateHandoff high states others]
    refine ⟨fun down closed => congrArg _ (takeCalendarState_running down closed), fun stopped => ?_⟩
    rw [takeCalendarState_stopped stopped, lostItems_eq, handItems_eq]
    rfl
  · subst ride
    intro p base c
    rw [exec_recomputation high claims others]
    rfl

/-! ## Dispatch records (R150) -/

section TakeRecord

variable {d : DispatchRecord} {s : State}

theorem exec_dispatchRecord {before after : List DispatchRecord} (high : s.resetLow = false)
    (records : s.out.records = before ++ d :: after) (others : ∀ x ∈ before, x.ride ≠ d.ride) :
    exec (.dispatchRecord d.ride) s =
      .next (takeRecord d { s with out := { s.out with records := before ++ after } }) := by
  have taken : takeFirst (fun x => x.ride == d.ride) s.out.records = some (d, before ++ after) :=
    takeFirst_eq_some.2 ⟨before, after, records, fun x hx => by simpa using others x hx, by simp, rfl⟩
  show execDispatchRecord d.ride s = _
  rw [execDispatchRecord, event_taken _ high, taken]

theorem takeRecord_night (night : inDay s.day.phase = false) : takeRecord d s = s := by
  rw [takeRecord, night]
  rfl

/-- The monitor of a ride after a record. -/
def recorded (d : DispatchRecord) (m : Monitor) : Monitor :=
  let m' := rotateToRecord (d.time / 60) m
  { m' with buckets := m'.buckets.modify (bucketPlace (d.time / 60) m') (addToBucket d.riders d.passPart) }

theorem takeRecord_day (day : inDay s.day.phase = true) :
    takeRecord d s = { s with monitors := put s.monitors d.ride (recorded d (look s.monitors d.ride)) } := if_pos day

variable {m : Monitor}

theorem recorded_in_history (old : d.time / 60 ≤ m.newestMinute) (kept : m.newestMinute - d.time / 60 < m.buckets.length) :
    recorded d m = { m with
      buckets := m.buckets.modify (m.newestMinute - d.time / 60) (addToBucket d.riders d.passPart) } := by
  have stays : rotateToRecord (d.time / 60) m = m := if_neg (Nat.not_lt.2 old)
  have place : bucketPlace (d.time / 60) m = m.newestMinute - d.time / 60 := if_pos kept
  rw [recorded, stays, place]

theorem recorded_before_history {b : DispatchBucket} {bs : List DispatchBucket} (buckets : m.buckets = b :: bs)
    (old : d.time / 60 ≤ m.newestMinute) (lost : m.buckets.length ≤ m.newestMinute - d.time / 60) :
    recorded d m = { m with buckets := addToBucket d.riders d.passPart b :: bs } := by
  have stays : rotateToRecord (d.time / 60) m = m := if_neg (Nat.not_lt.2 old)
  have place : bucketPlace (d.time / 60) m = 0 := if_neg (Nat.not_lt.2 lost)
  rw [recorded, stays, place, buckets]
  rfl

/-- A minute later than the newest bucket's rotates the history up to it. -/
theorem recorded_new {b : DispatchBucket} {bs : List DispatchBucket} (buckets : m.buckets = b :: bs)
    (new : m.newestMinute < d.time / 60) : recorded d m = { m with
      newestMinute := d.time / 60
      buckets := addToBucket d.riders d.passPart ⟨0, 0⟩ ::
        (List.replicate (d.time / 60 - m.newestMinute - 1) (⟨0, 0⟩ : DispatchBucket) ++ m.buckets).take bs.length } := by
  obtain ⟨n, later⟩ : ∃ n, d.time / 60 - m.newestMinute = n + 1 := ⟨_, (Nat.succ_pred_eq_of_pos (Nat.sub_pos_of_lt new)).symm⟩
  have rotated : rotateToRecord (d.time / 60) m = { m with
      newestMinute := d.time / 60
      buckets := ⟨0, 0⟩ :: (List.replicate n (⟨0, 0⟩ : DispatchBucket) ++ m.buckets).take bs.length } := by
    refine (if_pos new).trans ?_
    rw [rotateBuckets, later, List.replicate_succ, List.cons_append]
    congr 1
    rw [buckets]
    rfl
  have place : bucketPlace (d.time / 60) (rotateToRecord (d.time / 60) m) = 0 := by
    rw [rotated, bucketPlace, Nat.sub_self]
    exact ite_self 0
  rw [recorded, place, rotated, later]
  rfl

end TakeRecord

/-! ## Evaluations (R151 to R157) -/

section TakeEvaluation

variable {h : EvaluationHandoff} {s : State}

theorem exec_evaluation {before after : List EvaluationHandoff} (high : s.resetLow = false)
    (evaluations : s.out.evaluations = before ++ h :: after) (others : ∀ x ∈ before, x.ride ≠ h.ride) :
    exec (.evaluation h.ride) s =
      .next (takeEvaluation h { s with out := { s.out with evaluations := before ++ after } }) := by
  have taken : takeFirst (fun x => x.ride == h.ride) s.out.evaluations = some (h, before ++ after) :=
    takeFirst_eq_some.2 ⟨before, after, evaluations, fun x hx => by simpa using others x hx, by simp, rfl⟩
  show execEvaluation h.ride s = _
  rw [execEvaluation, event_taken _ high, taken]

theorem takeEvaluation_night (night : inDay s.day.phase = false) : takeEvaluation h s = s := by
  rw [takeEvaluation, night]
  rfl

/-- R155: the record of a monitored value after an evaluation, in the statements' words. -/
def nextAttribute (a : AttributeRecord) (value worst : Nat) (exceeded : Bool) : AttributeRecord :=
  ⟨some value, some worst, exceeded,
    if exceeded = true ∧ a.exceeded = false then min 65535 (a.exceedCount + 1) else a.exceedCount⟩

theorem updateAttribute_eq (worse : Nat → Nat → Nat) (beyond : Nat → Nat → Bool) (threshold value : Nat)
    (a : AttributeRecord) : updateAttribute worse beyond threshold value a =
      nextAttribute a value ((a.worst.map fun x => worse value x).getD value)
        (decide (0 < threshold) && beyond value threshold) := by
  have worst : a.worst.elim value (worse value) = (a.worst.map fun x => worse value x).getD value := by
    cases a.worst <;> rfl
  have count (x : Bool) (n k : Nat) : (if x && !a.exceeded then n else k) = if x = true ∧ a.exceeded = false then n else k :=
    if_congr (by rw [Bool.and_eq_true, Bool.not_eq_true']) rfl rfl
  rw [updateAttribute, worst, nextAttribute]
  simp only [count]
  rfl

theorem updateLow_eq (threshold value : Nat) (a : AttributeRecord) : updateLow threshold value a =
    nextAttribute a value ((a.worst.map fun x => min value x).getD value)
      (decide (0 < threshold ∧ value < threshold)) := by
  rw [updateLow, updateAttribute_eq, ← Bool.decide_and]

theorem updateHigh_eq (threshold value : Nat) (a : AttributeRecord) : updateHigh threshold value a =
    nextAttribute a value ((a.worst.map fun x => max value x).getD value)
      (decide (0 < threshold ∧ threshold < value)) := by
  rw [updateHigh, updateAttribute_eq, ← Bool.decide_and]

/-- R152: the fifteen minutes before a window's end. -/
theorem spanBuckets_eq (m : Monitor) (stop : Nat) : spanBuckets m stop = (m.buckets.zipIdx.filter fun x =>
    decide (x.2 ≤ m.newestMinute ∧ stop - 15 ≤ m.newestMinute - x.2 ∧ m.newestMinute - x.2 < stop)).map Prod.fst := by
  rw [spanBuckets]
  refine congrArg _ (List.filter_congr fun x _ => ?_)
  rw [← Bool.decide_and, ← Bool.decide_and, decide_eq_decide]
  omega

/-- A flag that is set in one case joins the pending flags in that case. -/
theorem raise_if (f : Flag) (x : Bool) (s : State) : (if x = true then raise f s else s) =
    { s with out := { s.out with flags := if x = true then s.out.flags ++ [f] else s.out.flags } } := by
  cases x <;> rfl

theorem takeEvaluation_day {m' : Monitor} (day : inDay s.day.phase = true)
    (evaluated : evaluateMonitor (look s.rideTable h.ride).written (noShowLookup s h.ride) h.window h.stop
      (look s.monitors h.ride) = m') :
    takeEvaluation h s = { s with
      rideTable := put s.rideTable h.ride
        { look s.rideTable h.ride with inEffect := (look s.rideTable h.ride).written }
      monitors := put s.monitors h.ride m'
      out := { s.out with
        flags := if anyEnters (look s.monitors h.ride) m' = true then s.out.flags ++ [.attrExceeded] else s.out.flags
        recomputations := s.out.recomputations ++
          [⟨h.ride, m'.derate, m'.overbook, m'.throttle, (look s.rideTable h.ride).written⟩] } } := by
  have effect : (rideEntry { s with rideTable := upd s.rideTable h.ride bringIntoEffect } h.ride).inEffect =
      (look s.rideTable h.ride).written := by
    rw [rideEntry, look_upd_same]
    rfl
  refine (if_pos day).trans ?_
  simp only [effect, raise_if]
  rw [← evaluated]
  rfl

end TakeEvaluation

/-- Settles O43: a record by the place of its minute, and an evaluation value by value. -/
theorem conditionMonitor : Obligations.ConditionMonitor := by
  unfold Obligations.ConditionMonitor
  refine ⟨fun r d before after s high records ride others => ?_, fun r h before after s high evaluations ride others => ?_⟩
  · subst ride
    intro s1 m minute add becomes
    rw [exec_dispatchRecord high records others]
    refine ⟨fun night => congrArg _ (takeRecord_night (s := s1) night), fun b bs day buckets => ?_⟩
    have sets {m' : Monitor} (result : recorded d m = m') : takeRecord d s1 = becomes m' := by
      rw [← result]
      exact takeRecord_day day
    exact ⟨fun old kept => congrArg _ (sets (recorded_in_history old kept)),
      fun old lost => congrArg _ (sets (recorded_before_history buckets old lost)),
      fun new => congrArg _ (sets (recorded_new buckets new))⟩
  · subst ride
    intro s1 e f m span d p past gone came tv nv gv tx nx gx next derate overbook throttle enters
    rw [exec_evaluation high evaluations others]
    refine ⟨fun night => congrArg _ (takeEvaluation_night (s := s1) night), fun day => ?_⟩
    have evaluated : evaluateMonitor f (noShowLookup s1 h.ride) h.window h.stop m = { m with
        throughput := next m.throughput tv ((m.throughput.worst.map fun x => min tv x).getD tv) tx
        noShow := next m.noShow nv ((m.noShow.worst.map fun x => max nv x).getD nv) nx
        mergeLoad := next m.mergeLoad gv ((m.mergeLoad.worst.map fun x => max gv x).getD gv) gx
        derate := derate
        overbook := overbook
        throttle := throttle
        evaluations := m.evaluations + 1
        lastEvaluation := some (h.window, h.stop) } := by
      rw [evaluateMonitor, spanBuckets_eq]
      simp only [List.map_map, updateLow_eq, updateHigh_eq]
      rfl
    exact congrArg _ (takeEvaluation_day (s := s1) day evaluated)

end Sys2Proof.Machine
end

section
/-! PROOFS. Work items and releases (O44), and the Walker's steps (O45). -/

namespace Sys2Proof.Machine

/-! ## Work items (R115, R116) -/

section WorkItems

variable {is : List WorkItem} {s : State}

theorem exec_workItemHandoff {r : Ride} {k : Nat} {before after : List (List WorkItem)} (high : s.resetLow = false)
    (items : s.out.workItems = before ++ is :: after) (has : ∃ j ∈ is, j.ride = r ∧ j.window = k)
    (others : ∀ b ∈ before, ∀ j ∈ b, ¬(j.ride = r ∧ j.window = k)) : exec (.workItemHandoff r k) s =
      .next (takeWorkItems is { s with out := { s.out with workItems := before ++ after } }) := by
  have hands {js : List WorkItem} : handsItem r k js = true ↔ ∃ j ∈ js, j.ride = r ∧ j.window = k := by
    simp only [handsItem, List.any_eq_true, decide_eq_true_iff]
  have taken : takeFirst (handsItem r k) s.out.workItems = some (is, before ++ after) := by
    refine takeFirst_eq_some.2 ⟨before, after, items, fun b hb => ?_, hands.2 has, rfl⟩
    rw [← Bool.not_eq_true, hands]
    rintro ⟨j, member, here⟩
    exact others b hb j member here
  show execWorkItemHandoff r k s = _
  rw [execWorkItemHandoff, event_taken _ high, taken]

theorem walkerState_idle {w : Walker} : walkerState w = .idle ↔ w.waiting = none ∧ w.item = none := by
  rw [walkerState]
  cases w.waiting <;> cases w.item <;> simp

theorem takeWorkItems_night (night : inDay s.day.phase = false) : takeWorkItems is s = s := by
  rw [takeWorkItems, night]
  rfl

variable (day : inDay s.day.phase = true)
include day

theorem takeWorkItems_busy (busy : s.walker.waiting.isSome = true ∨ s.walker.item.isSome = true) :
    takeWorkItems is s = { s with walker := { s.walker with
      workList := s.walker.workList ++ is, displacing := is.foldl countItem s.walker.displacing } } := by
  have notIdle : walkerState s.walker ≠ .idle := fun idle => by
    obtain ⟨waiting, item⟩ := walkerState_idle.1 idle
    rw [waiting, item] at busy
    rcases busy with x | x <;> cases x
  refine (if_pos day).trans ?_
  simp only [notIdle, if_false]

theorem takeWorkItems_idle {i : WorkItem} (waiting : s.walker.waiting = none) (item : s.walker.item = none)
    (empty : s.walker.workList = []) : takeWorkItems (i :: is) s = { s with walker := { s.walker with
      item := some i, workList := is, displacing := (i :: is).foldl countItem s.walker.displacing } } := by
  refine (if_pos day).trans ?_
  simp only [walkerState_idle.2 ⟨waiting, item⟩, if_true, empty, List.nil_append, takeItem]

end WorkItems

/-! ## Releases (R90) -/

section Releases

variable {s : State}

theorem engineWaits_iff : engineWaits s = true ↔ s.engine.outbox ≠ [] := by
  rw [engineWaits, Bool.not_eq_true', List.isEmpty_eq_false_iff]

theorem engineWaits_eq_false : engineWaits s = false ↔ s.engine.outbox = [] := by
  rw [engineWaits, Bool.not_eq_false', List.isEmpty_iff]

theorem releaseEntry_eq (e : HeldEntry) :
    releaseEntry e = if e.expiring = false then { e with servable := true } else e := by
  rw [releaseEntry]
  cases e.expiring <;> rfl

theorem releaseRide_eq (r : Ride) (e : HeldEntry) :
    releaseRide r e = if e.ride = r ∧ e.expiring = false then { e with servable := true } else e := by
  rw [releaseRide, releaseEntry_eq]
  by_cases ride : e.ride = r
  · rw [if_pos ride]
    exact if_congr (and_iff_right ride).symm rfl rfl
  · rw [if_neg ride, if_neg fun both => ride both.1]

theorem exec_endOfDisplacement {r : Ride} {before after : List Ride} (high : s.resetLow = false)
    (ends : s.out.displacementEnds = before ++ r :: after) (others : r ∉ before) : exec (.endOfDisplacement r) s =
      .next (if engineWaits s then s
        else changeHeld (releaseRide r) { s with out := { s.out with displacementEnds := before ++ after } }) := by
  have taken : takeFirst (fun x => x == r) s.out.displacementEnds = some (r, before ++ after) :=
    takeFirst_eq_some.2 ⟨before, after, ends, fun x hx => beq_eq_false_iff_ne.2 fun same => others (same ▸ hx), by simp,
      rfl⟩
  show execEndOfDisplacement r s = _
  rw [execEndOfDisplacement, event_taken _ high, taken]

theorem exec_lastCallRelease {n : Nat} (high : s.resetLow = false) (calls : s.out.lastCalls = n + 1) :
    exec .lastCallRelease s =
      .next (if engineWaits s then s else changeHeld releaseEntry { s with out := { s.out with lastCalls := n } }) := by
  show execLastCallRelease s = _
  rw [execLastCallRelease, event_taken _ high, calls]
  cases engineWaits s <;> rfl

end Releases

/-- Settles O44: the items join and one is taken by the walker's state; the entries become servable one by one. -/
theorem workItemsAndReleases : Obligations.WorkItemsAndReleases := by
  unfold Obligations.WorkItemsAndReleases
  refine ⟨fun r k i is before after s high items has others => ?_, fun r before after s high ends others => ?_,
    fun n s high calls => ?_⟩
  · intro s1
    refine ⟨(i :: is).foldl countItem s.walker.displacing, look_foldl_countItem _ _, ?_⟩
    rw [exec_workItemHandoff high items has others]
    exact ⟨fun night => congrArg _ (takeWorkItems_night (s := s1) night),
      fun day busy => congrArg _ (takeWorkItems_busy (s := s1) day busy),
      fun day waiting item empty => congrArg _ (takeWorkItems_idle (s := s1) day waiting item empty)⟩
  · rw [exec_endOfDisplacement high ends others]
    refine ⟨fun waits => congrArg _ (if_pos (engineWaits_iff.2 waits)), fun idle => congrArg _ ?_⟩
    rw [engineWaits_eq_false.2 idle, changeHeld, funext (releaseRide_eq r)]
    rfl
  · rw [exec_lastCallRelease high calls]
    refine ⟨fun waits => congrArg _ (if_pos (engineWaits_iff.2 waits)), fun idle => congrArg _ ?_⟩
    rw [engineWaits_eq_false.2 idle, changeHeld, funext releaseEntry_eq]
    rfl

/-! ## A step of the Walker (R117 to R120) -/

section Step

variable {i : WorkItem} {w : Window} {s : State} (high : s.resetLow = false) (waiting : s.walker.waiting = none)
  (item : s.walker.item = some i)
include high waiting item

theorem exec_displaceStep (kind : i.kind = .displace) : exec .displaceStep s = .next (displaceStep i s) := by
  have stepping : walkerState s.walker = .stepping := by rw [walkerState, waiting, item]; rfl
  show execDisplaceStep s = _
  rw [execDisplaceStep, event_taken _ high]
  simp only [stepping, item, kind, if_true]

theorem exec_expireStep (kind : i.kind = .expire) : exec .expireStep s = .next (expireStep i s) := by
  have stepping : walkerState s.walker = .stepping := by rw [walkerState, waiting, item]; rfl
  show execExpireStep s = _
  rw [execExpireStep, event_taken _ high]
  simp only [stepping, item, kind, if_true]

end Step

section Claims

variable {r : Ride} {k : Nat} {w : Window} {s : State} (window : windowOf s r k = some w)
include window

theorem displaceClaim_empty {b : Bool} (empty : w.holders = []) : displaceClaim r k b s = none := by
  simp only [displaceClaim, window, empty]

theorem expireClaim_empty (empty : w.holders = []) : expireClaim r k s = none := by
  simp only [expireClaim, window, empty]

variable {h : Holder} {rest : List Holder} (holders : w.holders = h :: rest)
include holders

theorem expireClaim_head : expireClaim r k s = some (⟨h, w.start, rest.length⟩,
    { putWindow r k (expireOut h rest w) s with guests := dropPass h.credential r s.guests }) := by
  simp only [expireClaim, window, holders]
  rfl

/-- R51: the pass is shifted into the first later window that has room. -/
theorem displaceClaim_shifts {j : Nat} {v : Window} (later : k < j) (there : windowOf s r j = some v)
    (roomy : v.state = .future ∧ v.booked + h.party ≤ v.capacity)
    (first : ∀ i u, k < i → i < j → windowOf s r i = some u → ¬(u.state = .future ∧ u.booked + h.party ≤ u.capacity)) :
    displaceClaim r k true s = some (⟨h, w.start, some (j, v.start, v.stop), rest.length⟩,
      { putWindow r j (placeIn h v) (putWindow r k (moveOut h rest w) s) with
        guests := changePass h.credential r (fun p => { p with place := .window j, moves := p.moves + 1 }) s.guests }) := by
  have same (i : Nat) (after : k < i) : windowOf (putWindow r k (moveOut h rest w) s) r i = windowOf s r i :=
    windowOf_putWindow_other _ _ fun both => by omega
  have chosen : shiftTarget k h.party (look (putWindow r k (moveOut h rest w) s).calendar.windows r) = some j :=
    shiftTarget_eq_some.2 ⟨later, ⟨v, (same j later).trans there, roomy⟩,
      fun i u after before found => first i u after before ((same i after).symm.trans found)⟩
  simp only [displaceClaim, window, holders, if_true, chosen, Option.bind_some, same j later, there, Option.map_some]
  rfl

/-- R51: a pass that may not be shifted, or finds no room, goes to the flex list. -/
theorem displaceClaim_flexes {b : Bool} (unshifted : b = false ∨
      ∀ i u, k < i → windowOf s r i = some u → ¬(u.state = .future ∧ u.booked + h.party ≤ u.capacity)) :
    displaceClaim r k b s = some (⟨h, w.start, none, rest.length⟩,
      { changeFlex r (fun fs => fs ++ [h]) (putWindow r k (moveOut h rest w) s) with
        guests := changePass h.credential r (fun p => { p with place := .flex }) s.guests }) := by
  have target : (if b = true then
      shiftTarget k h.party (look (putWindow r k (moveOut h rest w) s).calendar.windows r) else none) = none := by
    rcases unshifted with stays | full
    · exact if_neg (by rw [stays]; decide)
    · rw [shiftTarget_eq_none.2 fun i u after found =>
        full i u after ((windowOf_putWindow_other _ _ fun both => by omega).symm.trans found), ite_self]
  simp only [displaceClaim, window, holders, target, Option.bind_none]
  rfl

end Claims

theorem countUp_one (n : Nat) : countUp n 1 = min 16777215 (n + 1) := rfl

/-- R118: a pass of the head holder may be shifted. -/
theorem mayShift_iff {i : WorkItem} {w : Window} {s : State} {h : Holder} {rest : List Holder} {p : Pass}
    (window : windowOf s i.ride i.window = some w) (holders : w.holders = h :: rest)
    (pass : passOf h.credential i.ride s.guests = some p) :
    mayShift s i = true ↔ (look s.rideTable i.ride).displacePolicy = .shift ∧ p.moves < 2 := by
  rw [mayShift, window, Option.map_some, holders]
  show (decide _ && decide _) = true ↔ _
  rw [Bool.and_eq_true, decide_eq_true_iff, decide_eq_true_iff, movesOf, pass]
  rfl

/-! ## What a step leaves behind (R121, R122, R123) -/

section Finish

variable {i : WorkItem} {f : Option PartFrame} {s : State}

theorem completeItem_displace (kind : i.kind = .displace) : completeItem i s = { s with
    walker := { s.walker with item := none, displacing := put s.walker.displacing i.ride (look s.walker.displacing i.ride - 1) }
    out := { s.out with displacementEnds := if look s.walker.displacing i.ride - 1 = 0 then
      s.out.displacementEnds ++ [i.ride] else s.out.displacementEnds } } := by
  simp only [completeItem, kind, if_true]
  split <;> rfl

theorem completeItem_expire (kind : i.kind ≠ .displace) :
    completeItem i s = { s with walker := { s.walker with item := none } } := if_neg kind

theorem completeItem_keeps (i : WorkItem) (s : State) : (completeItem i s).trunkPort = s.trunkPort ∧
    (completeItem i s).walker.waiting = s.walker.waiting ∧ (completeItem i s).walker.workList = s.walker.workList := by
  by_cases kind : i.kind = .displace
  · rw [completeItem_displace kind]
    exact ⟨rfl, rfl, rfl⟩
  · rw [completeItem_expire kind]
    exact ⟨rfl, rfl, rfl⟩

theorem sendChange_none (s : State) : sendChange none s = s := rfl

theorem sendChange_room {g : PartFrame} (room : s.trunkPort.partQueue.length + s.trunkPort.waiters.length < 128) :
    sendChange (some g) s =
      { s with trunkPort := { s.trunkPort with partQueue := s.trunkPort.partQueue ++ [g] } } :=
  if_pos (decide_eq_true room)

theorem sendChange_wait {g : PartFrame} (full : ¬s.trunkPort.partQueue.length + s.trunkPort.waiters.length < 128) :
    sendChange (some g) s = { s with
      trunkPort := { s.trunkPort with waiters := s.trunkPort.waiters ++ [.walker] }
      walker := { s.walker with waiting := some g } } :=
  if_neg fun room => full (of_decide_eq_true room)

theorem finishStep_left {n : Nat} (left : 0 < n) : finishStep i f n s = sendChange f s := if_neg (Nat.ne_of_gt left)

theorem finishStep_last : finishStep i f 0 s =
    if (sendChange f (completeItem i s)).walker.waiting.isSome then sendChange f (completeItem i s)
    else nextItem (sendChange f (completeItem i s)) := if_pos rfl

/-- A change that is sent leaves the Walker as it is. -/
theorem sendChange_walker (goes : ¬(f.isSome = true ∧
    ¬s.trunkPort.partQueue.length + s.trunkPort.waiters.length < 128)) : (sendChange f s).walker = s.walker := by
  cases f with
  | none => rfl
  | some g => rw [sendChange_room (by_contra fun full => goes ⟨rfl, full⟩)]

end Finish

/-- A step that completes its item waits with its change, or goes on to the next item. -/
theorem finishStep_waits {i : WorkItem} {f : Option PartFrame} {s : State}
    (waits : f.isSome = true ∧ ¬s.trunkPort.partQueue.length + s.trunkPort.waiters.length < 128) :
    finishStep i f 0 s = sendChange f (completeItem i s) := by
  obtain ⟨g, rfl⟩ := Option.isSome_iff_exists.1 waits.1
  have full : ¬(completeItem i s).trunkPort.partQueue.length + (completeItem i s).trunkPort.waiters.length < 128 := by
    rw [(completeItem_keeps i s).1]
    exact waits.2
  rw [finishStep_last, sendChange_wait full]
  rfl

theorem finishStep_goes {i : WorkItem} {f : Option PartFrame} {s : State} (idle : s.walker.waiting = none)
    (goes : ¬(f.isSome = true ∧ ¬s.trunkPort.partQueue.length + s.trunkPort.waiters.length < 128)) :
    (sendChange f (completeItem i s)).walker = (completeItem i s).walker ∧
      finishStep i f 0 s = nextItem (sendChange f (completeItem i s)) := by
  obtain ⟨port, waiting, -⟩ := completeItem_keeps i s
  have same : (sendChange f (completeItem i s)).walker = (completeItem i s).walker := by
    apply sendChange_walker
    rw [port]
    exact goes
  refine ⟨same, ?_⟩
  rw [finishStep_last, same, waiting, idle]
  rfl

/-- Settles O45: a step by its claim, and its end by the room and the holders left. -/
theorem walkerSteps : Obligations.WalkerSteps := by
  unfold Obligations.WalkerSteps
  refine ⟨fun i w s high waiting item window => ?_, fun i f s waiting item => ?_⟩
  · intro r ws gateway label change
    refine ⟨fun kind => ⟨fun empty => ?_, fun h rest p holders pass => ?_⟩,
      fun kind => ⟨fun empty => ?_, fun h rest holders => ?_⟩⟩
    · rw [exec_displaceStep high waiting item kind, displaceStep, displaceClaim_empty window empty]
    · intro shifting roomy left
      have moves (f : Pass → Pass) (ride : ∀ p, (f p).ride = p.ride) :
          (passOf h.credential i.ride (changePass h.credential i.ride f s.guests)).elim 0 Pass.moves = (f p).moves := by
        rw [passOf_changePass ride, if_pos ⟨rfl, rfl⟩, pass]
        rfl
      refine ⟨fun k v shifts later there isRoomy first => ?_, fun stays => ?_⟩
      · intro joined
        refine ⟨_, ?_, rfl⟩
        have may : mayShift s i = true := (mayShift_iff window holders pass).2 shifts
        rw [exec_displaceStep high waiting item kind, displaceStep, may,
          displaceClaim_shifts window holders later there isRoomy first]
        have shifted := moves (fun p => { p with place := .window k, moves := p.moves + 1 }) fun _ => rfl
        simp only [movesOf, changeCounts, putWindow, changeWindows, upd_upd, shifted]
        rfl
      · refine ⟨_, ?_, rfl⟩
        rw [exec_displaceStep high waiting item kind, displaceStep, displaceClaim_flexes window holders ?unshifted]
        case unshifted =>
          refine stays.imp_left fun no => ?_
          rw [← Bool.not_eq_true, mayShift_iff window holders pass]
          exact no
        have flexed := moves (fun p => { p with place := .flex }) fun _ => rfl
        simp only [movesOf, changeCounts, putWindow, changeWindows, changeFlex, flexed]
        rfl
    · rw [exec_expireStep high waiting item kind, expireStep, expireClaim_empty window empty]
    · intro left
      refine ⟨_, ?_, rfl⟩
      rw [exec_expireStep high waiting item kind, expireStep, expireClaim_head window holders]
      rfl
  · intro room sent waits n completed
    have sends {u : State} (port : u.trunkPort = s.trunkPort) : sendChange f u = sent u := by
      cases f with
      | none => rfl
      | some g =>
        by_cases hasRoom : s.trunkPort.partQueue.length + s.trunkPort.waiters.length < 128
        · rw [sendChange_room (by rw [port]; exact hasRoom), port]
          exact (if_pos hasRoom).symm
        · rw [sendChange_wait (by rw [port]; exact hasRoom), port]
          exact (if_neg hasRoom).symm
    have completes : completeItem i s = completed := by
      by_cases kind : i.kind = .displace
      · exact (completeItem_displace kind).trans (if_pos kind).symm
      · exact (completeItem_expire kind).trans (if_neg kind).symm
    obtain ⟨port, -, list⟩ := completeItem_keeps i s
    rw [completes] at port list
    refine ⟨fun left more => (finishStep_left more).trans (sends rfl), fun waits => ?_, fun goes empty => ?_,
      fun goes j js more => ?_⟩
    · rw [finishStep_waits waits, completes, sends port]
    all_goals
      obtain ⟨same, step⟩ := finishStep_goes (i := i) waiting goes
      rw [completes, sends port] at same step
      rw [step, nextItem, same, list]
    · rw [empty]
      rfl
    · rw [more, takeItem, list, more]

end Sys2Proof.Machine
end

section
/-! PROOFS. The arbiter (O46) and the serves of requests (O48). -/

namespace Sys2Proof.Machine

/-! ## The arbiter (R82, R83) -/

theorem pickQueue_fixed {s : State} (fixed : s.day.park.arbiterMode = .fixed) :
    pickQueue s = pickFixed s.engine.kiosk s.engine.remote := by
  rw [pickQueue, fixed]

theorem pickQueue_share {s : State} (share : s.day.park.arbiterMode = .share) : pickQueue s =
    pickShare s.engine.lastQueue s.engine.run s.day.park.runLimit s.engine.kiosk s.engine.remote := by
  rw [pickQueue, share]

theorem pickFixed_kiosk {kiosk : List Request} (remote : List Request) (hasOne : kiosk ≠ []) :
    pickFixed kiosk remote = some .kiosk := by
  rw [pickFixed, List.isEmpty_eq_false_iff.2 hasOne]
  rfl

theorem pickFixed_remote {remote : List Request} (hasOne : remote ≠ []) : pickFixed [] remote = some .remote := by
  rw [pickFixed, List.isEmpty_eq_false_iff.2 hasOne]
  rfl

/-- Where a queue is empty the modes agree. -/
theorem pickQueue_of_empty {s : State} (empty : s.engine.kiosk = [] ∨ s.engine.remote = []) :
    pickQueue s = pickFixed s.engine.kiosk s.engine.remote := by
  cases mode : s.day.park.arbiterMode with
  | fixed => exact pickQueue_fixed mode
  | share =>
    rw [pickQueue_share mode]
    refine if_pos ?_
    rcases empty with nothing | nothing <;> rw [nothing]
    · exact Bool.true_or _
    · exact Bool.or_true _

/-- Where both queues have requests, SHARE looks at the run. -/
theorem pickShare_both {last : Option Origin} {run limit : Nat} {kiosk remote : List Request} (hasKiosk : kiosk ≠ [])
    (hasRemote : remote ≠ []) : pickShare last run limit kiosk remote =
      match last with
      | none => some .kiosk
      | some .kiosk => if run < limit then some .kiosk else some .remote
      | some .remote => if run < limit then some .remote else some .kiosk := by
  refine if_neg ?_
  rw [List.isEmpty_eq_false_iff.2 hasKiosk, List.isEmpty_eq_false_iff.2 hasRemote]
  exact Bool.false_ne_true

/-- Settles O46: the queues that have a request, then the mode, the last queue and the run. -/
theorem arbiterPicks : Obligations.ArbiterPicks := by
  unfold Obligations.ArbiterPicks
  intro s kiosk remote limit
  refine ⟨fun noKiosk noRemote => ?_, fun hasKiosk noRemote => ?_, fun noKiosk hasRemote => ?_,
    fun hasKiosk hasRemote => ⟨fun fixed => ?_, fun share => ?_⟩⟩
  · rw [pickQueue_of_empty (.inl noKiosk), show s.engine.kiosk = [] from noKiosk, show s.engine.remote = [] from noRemote]
    rfl
  · rw [pickQueue_of_empty (.inr noRemote), pickFixed_kiosk _ hasKiosk]
  · rw [pickQueue_of_empty (.inl noKiosk), show s.engine.kiosk = [] from noKiosk, pickFixed_remote hasRemote]
  · rw [pickQueue_fixed fixed, pickFixed_kiosk _ hasKiosk]
  · have both := (pickQueue_share share).trans (pickShare_both hasKiosk hasRemote)
    refine ⟨fun last => ?_, fun last below => ?_, fun last reached => ?_, fun last below => ?_, fun last reached => ?_⟩
    all_goals
      refine both.trans ?_
      rw [last]
    · exact if_pos below
    · exact if_neg (Nat.not_lt.2 reached)
    · exact if_pos below
    · exact if_neg (Nat.not_lt.2 reached)

/-! ## The picked request (R80, R81) -/

/-- An event that finds nothing to do. -/
theorem event_self {f : State → State} {s : State} (same : f s = s) : event f s = .next s := by
  cases low : s.resetLow with
  | false => rw [event_taken _ low, same]
  | true => exact event_held _ low

theorem servableHeld_iff {s : State} : servableHeld s = true ↔ ∃ e ∈ s.engine.heldList, e.servable = true := by
  rw [servableHeld, List.any_eq_true]

theorem pickedRequest_blocked {s : State}
    (blocked : s.engine.outbox ≠ [] ∨ ∃ e ∈ s.engine.heldList, e.servable = true) : pickedRequest s = none := by
  refine if_pos ?_
  rw [Bool.or_eq_true, engineWaits_iff, servableHeld_iff]
  exact blocked

theorem pickedRequest_of_head {s : State} {o : Origin} {q : Request} {rest : List Request} (head : requestHead s o q rest) :
    pickedRequest s = some (o, q, rest) := by
  obtain ⟨-, idle, still, picked, queue⟩ := head
  have free : ¬(engineWaits s || servableHeld s) = true := by
    rw [Bool.or_eq_true, engineWaits_iff, servableHeld_iff]
    rintro (waits | ⟨e, member, servable⟩)
    · exact waits idle
    · rw [still e member] at servable
      cases servable
  rw [pickedRequest, if_neg free, picked]
  simp only [queue]

section Exec

variable {s : State}

section Blocked

variable (nothing : pickedRequest s = none)
include nothing

theorem exec_passRequest_none : exec .passRequest s = .next s := by
  show execPassRequest s = _
  rw [execPassRequest]
  exact event_self (by rw [nothing])

theorem exec_passCancel_none : exec .passCancel s = .next s := by
  show execPassCancel s = _
  rw [execPassCancel]
  exact event_self (by rw [nothing])

theorem exec_passList_none : exec .passList s = .next s := by
  show execPassList s = _
  rw [execPassList]
  exact event_self (by rw [nothing])

end Blocked

section Head

variable {o : Origin} {q : Request} {rest : List Request} (head : requestHead s o q rest)
include head

theorem exec_passRequest_of_head {c : Credential} {party count : Nat} {labels : List Label} {ea la : Option Nat}
    (body : q.body = .pass c party count labels ea la) : exec .passRequest s =
      .next (servePassRequest o q c party count labels ea la (setQueue (portOfOrigin o) rest s)) := by
  have ⟨high, _, _, _, _⟩ := head
  show execPassRequest s = _
  rw [execPassRequest, event_taken _ high, pickedRequest_of_head head]
  simp only [body]

theorem exec_passCancel_of_head {c : Credential} {l : Label} (body : q.body = .cancel c l) : exec .passCancel s =
    .next (replyFromQueue o q (serveCancel c l (setQueue (portOfOrigin o) rest s)).1
      (serveCancel c l (setQueue (portOfOrigin o) rest s)).2) := by
  have ⟨high, _, _, _, _⟩ := head
  show execPassCancel s = _
  rw [execPassCancel, event_taken _ high, pickedRequest_of_head head]
  simp only [body]

theorem exec_passList_of_head {c : Credential} (body : q.body = .list c) : exec .passList s =
    .next (replyFromQueue o q (serveList c (setQueue (portOfOrigin o) rest s)) (setQueue (portOfOrigin o) rest s)) := by
  have ⟨high, _, _, _, _⟩ := head
  show execPassList s = _
  rw [execPassList, event_taken _ high, pickedRequest_of_head head]
  simp only [body]

end Head

/-! ## Serves (R70, R88, R91) -/

theorem servePassRequest_reply {o : Origin} {q : Request} {c : Credential} {party count : Nat} {labels : List Label}
    {ea la : Option Nat} {x : PassResult} {t : State}
    (judged : judgeRequest o c party count labels ea la s = (.reply x, t)) :
    servePassRequest o q c party count labels ea la s = replyFromQueue o q x t := by
  simp only [servePassRequest, judged]

theorem servePassRequest_aside {o : Origin} {q : Request} {c : Credential} {party count : Nat} {labels : List Label}
    {ea la : Option Nat} {r : Ride} {t : State}
    (judged : judgeRequest o c party count labels ea la s = (.aside r, t)) :
    servePassRequest o q c party count labels ea la s = setAside o q r t := by
  simp only [servePassRequest, judged]

/-- A request is set aside without an effect. -/
theorem judgeRequest_aside_state {o : Origin} {c : Credential} {party count : Nat} {labels : List Label}
    {ea la : Option Nat} {r : Ride} {t : State}
    (judged : judgeRequest o c party count labels ea la s = (.aside r, t)) : t = s := by
  unfold judgeRequest at judged
  split at judged
  · cases judged
  · split at judged
    · cases judged
    · split at judged
      · exact (congrArg Prod.snd judged).symm
      · cases judged
      · cases judged

theorem setAside_room {o : Origin} {q : Request} {r : Ride} (room : s.engine.heldList.length < 8) :
    setAside o q r s =
      { s with engine := { s.engine with heldList := s.engine.heldList ++ [⟨q, r, 0, false, false⟩] } } := if_pos room

theorem setAside_full {o : Origin} {q : Request} {r : Ride} (full : 8 ≤ s.engine.heldList.length) :
    setAside o q r s = replyFromQueue o q .retry s := if_neg (Nat.not_lt.2 full)

theorem serveList_night (c : Credential) (night : inDay s.day.phase = false) : serveList c s = .phaseClosed := by
  rw [serveList, night]
  rfl

theorem validCredential_eq_true {c : Credential} (notZero : c ≠ 0) (notOnes : c ≠ BitVec.allOnes 48) :
    validCredential c = true := validCredential_iff.2 ⟨notZero, notOnes⟩

theorem serveList_day {c : Credential} (day : inDay s.day.phase = true) : serveList c s =
    .listed (if validCredential c then ((guestOf c s.guests).elim [] Guest.passes).map (listedPass s) else []) := by
  rw [serveList, day]
  cases validCredential c <;> rfl

/-- The oldest servable entry. -/
theorem firstServable_of_split {before after : List HeldEntry} {e : HeldEntry} (still : ∀ x ∈ before, x.servable = false)
    (servable : e.servable = true) : firstServable (before ++ e :: after) = some (before.length, e) := by
  have found : (before ++ e :: after).findIdx? HeldEntry.servable = some before.length := by
    rw [List.findIdx?_append, List.findIdx?_eq_none_iff.2 still, List.findIdx?_cons, servable]
    simp
  rw [firstServable, found]
  simp

theorem insertIdx_length_append (before after : List HeldEntry) (e : HeldEntry) :
    (before ++ after).insertIdx before.length e = before ++ e :: after := by
  induction before with
  | nil => exact List.insertIdx_zero
  | cons x xs ih => rw [List.cons_append, List.length_cons, List.insertIdx_succ_cons, ih, List.cons_append]

theorem exec_heldServe_none (blocked : s.engine.outbox ≠ [] ∨ ∀ e ∈ s.engine.heldList, e.servable = false) :
    exec .heldServe s = .next s := by
  show execHeldServe s = _
  rw [execHeldServe]
  refine event_self ?_
  by_cases waits : engineWaits s = true
  · exact if_pos waits
  · refine (if_neg waits).trans ?_
    have still := blocked.resolve_left fun busy => waits (engineWaits_iff.2 busy)
    have nothing : firstServable s.engine.heldList = none := by
      rw [firstServable, List.findIdx?_eq_none_iff.2 still]
    rw [nothing]

theorem exec_heldServe_of_split {before after : List HeldEntry} {e : HeldEntry} (high : s.resetLow = false)
    (idle : s.engine.outbox = []) (list : s.engine.heldList = before ++ e :: after)
    (still : ∀ x ∈ before, x.servable = false) (servable : e.servable = true) :
    exec .heldServe s = .next (serveHeldEntry before.length e s) := by
  show execHeldServe s = _
  rw [execHeldServe, event_taken _ high, engineWaits_eq_false.2 idle, list, firstServable_of_split still servable]
  rfl

section HeldEntry

variable {e : HeldEntry} {i : Nat} {c : Credential} {party count : Nat} {labels : List Label} {ea la : Option Nat} {t : State}
  (body : e.request.body = .pass c party count labels ea la)
include body

theorem serveHeldEntry_reply {x : PassResult} (judged : judgeRequest (originOf e.request.port) c party count labels ea la
    { s with engine := { s.engine with heldList := s.engine.heldList.eraseIdx i } } = (.reply x, t)) :
    serveHeldEntry i e s = engineSend [replyFrame e.request x] t := by
  simp only [serveHeldEntry, body, judged]

theorem serveHeldEntry_aside {r : Ride} (judged : judgeRequest (originOf e.request.port) c party count labels ea la
    { s with engine := { s.engine with heldList := s.engine.heldList.eraseIdx i } } = (.aside r, t)) :
    serveHeldEntry i e s = { s with engine := { s.engine with
      heldList := (s.engine.heldList.eraseIdx i).insertIdx i { e with ride := r, servable := false, expiring := false } } } := by
  have same := judgeRequest_aside_state judged
  subst same
  simp only [serveHeldEntry, body, judged]

end HeldEntry

theorem originOf_eq (p : Port) : originOf p = match p with | .field => .kiosk | .trunk => .remote := by
  cases p <;> rfl

end Exec

/-- R84: an answered serve from a queue keeps the run. -/
theorem countServe_eq (o : Origin) (e : PassEngine) : countServe o e =
    if e.lastQueue = some o then { e with run := min 15 (e.run + 1) } else { e with lastQueue := some o, run := 1 } := rfl

theorem countServe_outbox (o : Origin) (e : PassEngine) : (countServe o e).outbox = e.outbox := by
  rw [countServe_eq]
  split <;> rfl

/-- Settles O48: which request is served, what its serve comes to, and where its reply goes. -/
theorem requestsServed : Obligations.RequestsServed := by
  unfold Obligations.RequestsServed
  refine ⟨fun s => ⟨fun blocked => ?_, exec_heldServe_none⟩, fun o q rest s head => ?_, fun s p => ?_,
    fun before e after s high idle list still servable => ?_, fun o q x s idle => ?_⟩
  · have nothing := pickedRequest_blocked blocked
    exact ⟨exec_passRequest_none nothing, exec_passCancel_none nothing, exec_passList_none nothing⟩
  · intro s1
    refine ⟨fun c party count labels ea la body => ?_, fun c body => ?_⟩
    · rw [exec_passRequest_of_head head body]
      refine ⟨fun x t judged => congrArg _ (servePassRequest_reply judged), fun r t judged => ?_⟩
      rw [servePassRequest_aside judged, judgeRequest_aside_state judged]
      have sameList : (setQueue (portOfOrigin o) rest s).engine.heldList = s.engine.heldList := by cases o <;> rfl
      refine ⟨fun room => ?_, fun full => congrArg _ (setAside_full (by rw [sameList]; exact full))⟩
      rw [setAside_room (by rw [sameList]; exact room), sameList]
    · have dayKept : s1.day = s.day := setQueue_day ..
      have guests : s1.guests = s.guests := setQueue_guests ..
      rw [exec_passList_of_head head body]
      refine ⟨fun night => ?_, fun day nothing => ?_, fun g day notZero notOnes found => ?_⟩
      · rw [serveList_night c (by rw [setQueue_day]; exact night)]
      · have empty : serveList c s1 = .listed [] := by
          rw [serveList_day (by rw [dayKept]; exact day), guests]
          rcases nothing with zero | ones | absent
          · rw [validCredential_eq_false (.inl zero)]
            rfl
          · rw [validCredential_eq_false (.inr ones)]
            rfl
          · rw [absent]
            exact congrArg _ (ite_self _)
        rw [show serveList c (setQueue (portOfOrigin o) rest s) = _ from empty]
      · have listed : serveList c s1 = .listed (g.passes.map (listedPass s1)) := by
          rw [serveList_day (by rw [dayKept]; exact day), guests, validCredential_eq_true notZero notOnes, found]
          rfl
        refine ⟨_, by rw [show serveList c (setQueue (portOfOrigin o) rest s) = _ from listed], ?_, ?_, ?_, ?_⟩
        all_goals
          rw [List.map_map]
          cases o <;> rfl
  · refine ⟨fun flex => ?_, fun k w place window => ?_⟩
    · simp only [passState, passSpan, flex, and_self]
    · simp only [passState, passSpan, place, window, Option.map_some, true_and]
      refine ⟨fun state => ?_, fun state => ?_, fun state => ?_, fun state => ?_⟩
      all_goals rw [state]
  · intro s1 c party count labels ea la body judged
    have left : s.engine.heldList.eraseIdx before.length = before ++ after := by
      rw [list, List.eraseIdx_append_of_length_le (Nat.le_refl _), Nat.sub_self]
      rfl
    have result {y : Served × State} (gives : judged = y) : judgeRequest (originOf e.request.port) c party count labels ea la
        { s with engine := { s.engine with heldList := s.engine.heldList.eraseIdx before.length } } = y := by
      rw [left, originOf_eq]
      exact gives
    rw [exec_heldServe_of_split high idle list still servable]
    refine ⟨fun x t gives => congrArg _ (serveHeldEntry_reply body (result gives)), fun r t gives => ?_⟩
    rw [serveHeldEntry_aside body (result gives), left, insertIdx_length_append]
  · intro ps reply served
    have free : ({ s with engine := countServe o s.engine } : State).engine.outbox = [] := (countServe_outbox ..).trans idle
    have port : portOf { s with engine := countServe o s.engine } q.port = ps := by
      show _ = portOf s q.port
      cases q.port <;> rfl
    refine ⟨fun room => ⟨engineSend_room idle room, ?_⟩, fun full => ⟨engineSend_wait idle full, ?_⟩⟩
    · refine (engineSend_room free (by rw [port]; exact room)).trans ?_
      rw [port]
      cases q.port <;> rfl
    · refine (engineSend_wait free (by rw [port]; exact full)).trans ?_
      rw [port]
      cases q.port <;> rfl

end Sys2Proof.Machine
end

section
/-! PROOFS. How a PASS_REQUEST is judged (O47): the reasons of the listed rides, the search of their windows, and the effects
of the judgement. -/

namespace Sys2Proof.Machine

/-! ## Bad requests (R85) -/

theorem labelsDistinct_iff {labels : List Label} : labelsDistinct labels = true ↔ labels.Nodup := by
  induction labels with
  | nil => exact iff_of_true rfl List.nodup_nil
  | cons l ls ih =>
    rw [labelsDistinct, Bool.and_eq_true, ih, List.nodup_cons, Bool.not_eq_true', List.contains_eq_mem,
      decide_eq_false_iff_not]

theorem badRequest_iff {c : Credential} {party count : Nat} {labels : List Label} {ea la : Option Nat} :
    badRequest c party count labels ea la = true ↔
      c = 0 ∨ c = BitVec.allOnes 48 ∨ party = 0 ∨ 8 < party ∨ count = 0 ∨ 3 < count ∨ ¬labels.Nodup ∨
        (∃ x, ea = some x ∧ 1439 < x) ∨ (∃ x, la = some x ∧ 1439 < x) ∨ ∃ x y, ea = some x ∧ la = some y ∧ y < x := by
  have credential : (!validCredential c) = true ↔ c = 0 ∨ c = BitVec.allOnes 48 := by
    rw [Bool.not_eq_true', ← Bool.not_eq_true, validCredential_iff]
    tauto
  have repeated : (!labelsDistinct labels) = true ↔ ¬labels.Nodup := by
    rw [Bool.not_eq_true', ← Bool.not_eq_true, labelsDistinct_iff]
  have late (o : Option Nat) : o.any (fun x => decide (1439 < x)) = true ↔ ∃ x, o = some x ∧ 1439 < x := by
    cases o <;> simp
  unfold badRequest
  simp only [Bool.or_eq_true, credential, repeated, beq_iff_eq, decide_eq_true_iff, late, or_assoc]
  refine or_congr Iff.rfl (or_congr Iff.rfl (or_congr Iff.rfl (or_congr Iff.rfl (or_congr Iff.rfl (or_congr Iff.rfl
    (or_congr Iff.rfl (or_congr Iff.rfl (or_congr Iff.rfl ?_))))))))
  cases ea <;> cases la <;> simp

/-! ## The reasons of a listed ride (R64, R86) -/

section Reasons

variable {s : State} {c : Credential} {l : Label}

theorem guestRefusal_eq (limit : Nat) (c : Credential) (r : Ride) (gs : List Guest) : guestRefusal limit c r gs =
    match guestOf c gs with
    | none => if 65536 ≤ gs.length then some .tableFull else none
    | some g =>
      if g.passes.any fun p => decide (p.ride = r) then some .duplicate
      else if limit ≤ g.passes.length then some .limit else none := by
  rw [guestRefusal]
  cases guestOf c gs with
  | none => rfl
  | some g =>
    have listed : (passIn r g.passes).isSome = g.passes.any fun p => decide (p.ride = r) := by
      rw [Bool.eq_iff_iff, passIn, List.find?_isSome, List.any_eq_true]
      simp only [beq_iff_eq, decide_eq_true_iff]
    simp only [listed]

theorem rideReason_unknown (unknown : rideByLabel s l = none) : rideReason s c l = some (none, .unknownRide) := by
  simp only [rideReason, unknown]

theorem rideReason_known {r : Ride} (known : rideByLabel s l = some r) :
    rideReason s c l = (rideRefusal s c r).map fun x => (some r, x) := by
  simp only [rideReason, known, rideRefusal, rideState, guestRefusal_eq]
  cases (look s.rides r).state with
  | up =>
    cases guestOf c s.guests with
    | none => simp only [stateRefusal]; split <;> rfl
    | some g => simp only [stateRefusal]; split; rfl; split <;> rfl
  | suspect | down | closed | off => rfl

/-- A ride without a reason of R86 is found by its label. -/
theorem rideByLabel_of_rideReason_none (nothing : rideReason s c l = none) : ∃ r, rideByLabel s l = some r := by
  cases found : rideByLabel s l with
  | none => rw [rideReason_unknown found] at nothing; cases nothing
  | some r => exact ⟨r, rfl⟩

variable {party : Nat} {ea la : Option Nat}

theorem grantable_iff {r : Ride} {w : Window} :
    grantable (minuteNow s) (rideProfile s r).lead party ea la w = true ↔ grantsTo s r party ea la w := by
  simp only [grantable, Bool.and_eq_true, decide_eq_true_iff, and_assoc, grantsTo]
  refine and_congr Iff.rfl (and_congr Iff.rfl (and_congr ?_ (and_congr ?_ Iff.rfl)))
  · cases ea <;> simp
  · cases la <;> simp

/-- R50: the first window that meets every condition. -/
theorem grantWindow_of_first {r : Ride} {k : Nat} {w : Window} (window : windowOf s r k = some w)
    (meets : grantsTo s r party ea la w)
    (first : ∀ j v, j < k → windowOf s r j = some v → ¬grantsTo s r party ea la v) :
    grantWindow s r party ea la = some k := by
  obtain ⟨inside, rfl⟩ := List.getElem?_eq_some_iff.1 window
  refine List.findIdx?_eq_some_iff_getElem.2 ⟨inside, grantable_iff.2 meets, fun j before => ?_⟩
  rw [grantable_iff]
  exact first j _ before (List.getElem?_eq_getElem _)

theorem searchReason_of_reason {x : Option Ride × Reason} (reason : rideReason s c l = some x) :
    searchReason s c party ea la l = some x := by
  simp only [searchReason, reason]

theorem searchReason_none {r : Ride} (nothing : rideReason s c l = none) (known : rideByLabel s l = some r) :
    searchReason s c party ea la l = if (grantWindow s r party ea la).isSome then none else some (some r, .soldOut) := by
  simp only [searchReason, nothing, known, grantWindow, List.findIdx?_isSome]

/-! ## The walk over the listed rides (R86, R87, R92) -/

variable {ls : List Label} {tried : Bool} {acc : List (Option Ride × Reason)}

theorem judgeRides_reason {x : Option Ride × Reason} (reason : rideReason s c l = some x) :
    judgeRides s c party ea la (l :: ls) tried acc = judgeRides s c party ea la ls tried (acc ++ [x]) := by
  rw [judgeRides]
  cases found : rideByLabel s l with
  | none =>
    rw [rideReason_unknown found] at reason
    cases reason
    rfl
  | some r =>
    rw [rideReason_known found] at reason
    obtain ⟨y, refusal, rfl⟩ := Option.map_eq_some_iff.1 reason
    simp only [refusal]

variable {r : Ride} (nothing : rideReason s c l = none) (known : rideByLabel s l = some r)
include nothing known

theorem rideRefusal_none : rideRefusal s c r = none := by
  rw [rideReason_known known] at nothing
  exact Option.map_eq_none_iff.1 nothing

theorem judgeRides_aside (displacing : 0 < look s.walker.displacing r) :
    judgeRides s c party ea la (l :: ls) false acc = .setAside r := by
  have isDisplacing : isDisplacing s r = true := decide_eq_true displacing
  simp only [judgeRides, known, rideRefusal_none nothing known, isDisplacing]
  rfl

variable (free : tried = true ∨ look s.walker.displacing r = 0)
include free

/-- The windows of a ride are searched. -/
theorem judgeRides_searched : judgeRides s c party ea la (l :: ls) tried acc =
    match grantWindow s r party ea la with
    | some k => .grant r l k acc
    | none => judgeRides s c party ea la ls true (acc ++ [(some r, .soldOut)]) := by
  have notAside : (!tried && isDisplacing s r) = false := by
    rcases free with isTried | still
    · rw [isTried]; rfl
    · rw [isDisplacing, still]; exact Bool.and_false _
  simp only [judgeRides, known, rideRefusal_none nothing known, notAside]
  rfl

end Reasons

/-- The candidate is not displacing, or has been searched. -/
def CandidateFree (s : State) (c : Credential) (tried : Bool) (labels : List Label) : Prop :=
  tried = true ∨ ∀ l r, (labels.find? fun l => (rideReason s c l).isNone) = some l → rideByLabel s l = some r →
    look s.walker.displacing r = 0

section Walk

variable {s : State} {c : Credential} {party : Nat} {ea la : Option Nat}

/-- The rides with a reason come first: each reason is kept. -/
theorem judgeRides_reasons_first {before rest : List Label} {tried : Bool} {acc reasons : List (Option Ride × Reason)}
    (found : before.map (searchReason s c party ea la) = reasons.map some) (free : CandidateFree s c tried (before ++ rest)) :
    ∃ tried', judgeRides s c party ea la (before ++ rest) tried acc =
      judgeRides s c party ea la rest tried' (acc ++ reasons) ∧ CandidateFree s c tried' rest := by
  induction before generalizing tried acc reasons with
  | nil =>
    obtain rfl : reasons = [] := List.map_eq_nil_iff.1 found.symm
    exact ⟨tried, by rw [List.append_nil, List.nil_append], free⟩
  | cons l before ih =>
    obtain ⟨x, reasons, rfl⟩ : ∃ x xs, reasons = x :: xs := by
      cases reasons with
      | nil => cases found
      | cons x xs => exact ⟨x, xs, rfl⟩
    rw [List.map_cons, List.map_cons] at found
    obtain ⟨first, others⟩ := List.cons.inj found
    rw [List.cons_append, List.append_cons acc x reasons]
    cases reason : rideReason s c l with
    | some y =>
      obtain rfl : y = x := Option.some.inj ((searchReason_of_reason reason).symm.trans first)
      rw [judgeRides_reason reason]
      refine ih others (free.imp_right fun all l' r candidate => all l' r ?_)
      rw [List.cons_append, List.find?_cons_of_neg (by simp [reason])]
      exact candidate
    | none =>
      obtain ⟨r, known⟩ := rideByLabel_of_rideReason_none reason
      have still : tried = true ∨ look s.walker.displacing r = 0 := free.imp_right fun all =>
        all l r (List.find?_cons_of_pos (by simp [reason])) known
      rw [searchReason_none reason known] at first
      rw [judgeRides_searched reason known still]
      cases window : grantWindow s r party ea la with
      | some k => rw [window] at first; cases first
      | none =>
        rw [window] at first
        obtain rfl : (some r, Reason.soldOut) = x := Option.some.inj first
        exact ih others (.inl rfl)

/-- R87: the candidate's displacement sets the request aside. -/
theorem judgeRides_candidate {labels : List Label} {l : Label} {r : Ride} (acc : List (Option Ride × Reason))
    (candidate : (labels.find? fun l => (rideReason s c l).isNone) = some l) (known : rideByLabel s l = some r)
    (displacing : 0 < look s.walker.displacing r) : judgeRides s c party ea la labels false acc = .setAside r := by
  induction labels generalizing acc with
  | nil => cases candidate
  | cons m ls ih =>
    cases reason : rideReason s c m with
    | some x =>
      rw [List.find?_cons_of_neg (by simp [reason])] at candidate
      rw [judgeRides_reason reason]
      exact ih _ candidate
    | none =>
      rw [List.find?_cons_of_pos (by simp [reason])] at candidate
      obtain rfl := Option.some.inj candidate
      exact judgeRides_aside reason known displacing

end Walk

/-! ## The effects of a judgement (R64, R66, R94) -/

theorem countUp_countUp (n a b : Nat) : countUp (countUp n a) b = countUp n (a + b) := by
  simp only [countUp, Config.countMax]
  omega

/-- The refused count after some reasons of a ride. -/
theorem look_countReasons (rs : List (Option Ride × Reason)) (s : State) (r : Ride) :
    look (countReasons rs s).management.counts r =
      { look s.management.counts r with
        refused := if (rs.filter fun x => x.1 = some r).length = 0 then (look s.management.counts r).refused
          else countUp (look s.management.counts r).refused (rs.filter fun x => x.1 = some r).length } := by
  induction rs generalizing s with
  | nil => rfl
  | cons x rs ih =>
    obtain ⟨_ | q, reason⟩ := x
    · rw [List.filter_cons_of_neg (by simp)]
      exact ih s
    · have step : countReasons ((some q, reason) :: rs) s =
          countReasons rs (changeCounts q (fun c => { c with refused := countUp c.refused 1 }) s) := rfl
      have counts : (changeCounts q (fun c => { c with refused := countUp c.refused 1 }) s).management.counts =
          upd s.management.counts q fun c => { c with refused := countUp c.refused 1 } := rfl
      rw [step, ih, counts, look_upd]
      by_cases same : q = r
      · subst same
        rw [if_pos rfl, List.filter_cons_of_pos (by simp), List.length_cons, if_neg (Nat.succ_ne_zero _)]
        split
        · next nothing => rw [nothing]
        · rw [countUp_countUp, Nat.add_comm]
      · rw [if_neg same, List.filter_cons_of_neg (by simpa using same)]

theorem countReasons_eq (rs : List (Option Ride × Reason)) (s : State) : countReasons rs s =
    { s with management := { s.management with counts := (countReasons rs s).management.counts } } := by
  induction rs generalizing s with
  | nil => rfl
  | cons x rs ih =>
    obtain ⟨_ | r, reason⟩ := x
    · exact ih s
    · exact ih (changeCounts r _ s)

theorem flagFull_eq (rs : List (Option Ride × Reason)) (s : State) :
    flagFull rs s = flagged s (List.replicate (rs.filter fun x => x.2 = .tableFull).length .guestFull) := by
  induction rs generalizing s with
  | nil => simp [flagFull, flagged]
  | cons x rs ih =>
    by_cases full : x.2 = .tableFull
    · rw [List.filter_cons_of_pos (by simpa using full), List.length_cons, List.replicate_succ]
      have step : flagFull (x :: rs) s = flagFull rs (raise .guestFull s) := by
        rw [flagFull, List.foldl_cons, if_pos full]; rfl
      rw [step, ih, ← flagged_one]
      simp [flagged]
    · rw [List.filter_cons_of_neg (by simpa using full), ← ih]
      rw [flagFull, List.foldl_cons, if_neg full]; rfl

theorem length_addPass_new {c : Credential} {gs : List Guest} (new : guestOf c gs = none) (p : Pass) :
    (addPass c p gs).length = gs.length + 1 := by
  induction gs with
  | nil => rfl
  | cons g gs ih =>
    obtain ⟨other, absent⟩ : g.credential ≠ c ∧ guestOf c gs = none := by simpa [guestOf] using new
    rw [addPass]
    split
    · rfl
    · rw [if_neg (Ne.symm other), List.length_cons, ih absent, List.length_cons]

/-- R66: what a grant does to the Guest Table. -/
theorem grantPass_eq (c : Credential) (p : Pass) (s : State) : grantPass c p s =
    flagged { s with guests := addPass c p s.guests }
      (if guestOf c s.guests = none ∧ s.guests.length + 1 = 58983 then [.guestHigh] else []) := by
  by_cases new : guestOf c s.guests = none
  · have climbs : ((guestOf c s.guests).isNone && decide ((addPass c p s.guests).length = Config.guestHigh)) = true ↔
        guestOf c s.guests = none ∧ s.guests.length + 1 = 58983 := by
      rw [Bool.and_eq_true, Option.isNone_iff_eq_none, decide_eq_true_iff, length_addPass_new new]
      rfl
    rw [grantPass]
    simp only [climbs]
    split <;> simp [flagged, raise]
  · have known : (guestOf c s.guests).isNone = false := by rw [Option.isNone_eq_false_iff, Option.isSome_iff_ne_none]; exact new
    rw [grantPass, if_neg fun both : _ ∧ _ => new both.1, known]
    simp [flagged]

theorem placeGrant_eq {r : Ride} {k : Nat} {w : Window} {s : State} (window : windowOf s r k = some w) (c : Credential)
    (party : Nat) (o : Origin) : placeGrant r k c party o s =
      flagged { s with
        calendar := { s.calendar with windows := upd s.calendar.windows r fun ws => ws.set k { w with
          booked := w.booked + party, held := w.held + party, holders := w.holders ++ [⟨c, party⟩] } }
        guests := addPass c ⟨r, party, .window k, 0, o, minuteNow s⟩ s.guests }
      (if guestOf c s.guests = none ∧ s.guests.length + 1 = 58983 then [.guestHigh] else []) := by
  simp only [placeGrant, window]
  rw [grantPass_eq]
  rfl

/-! ## The judgement -/

section Judge

variable {o : Origin} {c : Credential} {party count : Nat} {labels : List Label} {ea la : Option Nat} {s : State}

theorem grantsPasses_iff {p : Phase} : grantsPasses p = true ↔ p = .preopen ∨ p = .opened := by
  cases p <;> simp [grantsPasses]

theorem judgeRequest_closed (closed : ¬(s.day.phase = .preopen ∨ s.day.phase = .opened)) :
    judgeRequest o c party count labels ea la s = (.reply .phaseClosed, s) := by
  refine if_pos ?_
  rw [Bool.not_eq_true', ← Bool.not_eq_true, grantsPasses_iff]
  exact closed

variable (isOpen : s.day.phase = .preopen ∨ s.day.phase = .opened)
include isOpen

theorem judgeRequest_bad (bad : badRequest c party count labels ea la = true) :
    judgeRequest o c party count labels ea la s = (.reply .badRequest, s) := by
  rw [judgeRequest, grantsPasses_iff.2 isOpen, bad]
  rfl

variable (good : ¬badRequest c party count labels ea la = true)
include good

theorem judgeRequest_aside {r : Ride} (judged : judgeRides s c party ea la labels false [] = .setAside r) :
    judgeRequest o c party count labels ea la s = (.aside r, s) := by
  rw [judgeRequest, grantsPasses_iff.2 isOpen, if_neg good, judged]
  rfl

theorem judgeRequest_refused {reasons : List (Option Ride × Reason)}
    (judged : judgeRides s c party ea la labels false [] = .refused reasons) :
    judgeRequest o c party count labels ea la s =
      (.reply (.refused (reasons.map Prod.snd)), countReasons reasons (flagFull reasons s)) := by
  rw [judgeRequest, grantsPasses_iff.2 isOpen, if_neg good, judged]
  rfl

theorem judgeRequest_granted {r : Ride} {l : Label} {k : Nat} {w : Window} {reasons : List (Option Ride × Reason)}
    (judged : judgeRides s c party ea la labels false [] = .grant r l k reasons) (window : windowOf s r k = some w) :
    judgeRequest o c party count labels ea la s =
      (.reply (.grant l party w.start w.stop (reasons.map Prod.snd)),
        changeCounts r (fun c => { c with granted := countUp c.granted 1 })
          (countReasons reasons (flagFull reasons (placeGrant r k c party o s)))) := by
  rw [judgeRequest, grantsPasses_iff.2 isOpen, if_neg good, judged]
  simp only [window]
  rfl

end Judge

/-- Settles O47: the walk over the labels decides; the counts and flags follow the reasons. -/
theorem requestsJudged : Obligations.RequestsJudged := by
  unfold Obligations.RequestsJudged
  intro o c party count labels ea la s judged isOpen bad counted full candidate
  refine ⟨judgeRequest_closed, fun opens isBad => judgeRequest_bad opens (badRequest_iff.2 isBad), fun opens fine => ?_⟩
  have good : ¬badRequest c party count labels ea la = true := fun isBad => fine (badRequest_iff.1 isBad)
  refine ⟨fun l r found known displacing => ?_, fun free => ⟨fun reasons found => ?_, ?_⟩⟩
  · exact judgeRequest_aside opens good (judgeRides_candidate [] found known displacing)
  · have walk : judgeRides s c party ea la labels false [] = .refused reasons := by
      obtain ⟨tried, walked, -⟩ := judgeRides_reasons_first (rest := []) (tried := false) (acc := []) found
        (.inr (by rw [List.append_nil]; exact free))
      rw [List.append_nil] at walked
      exact walked
    refine ⟨_, judgeRequest_refused opens good walk, fun r => ?_, ?_⟩
    · rw [look_countReasons, flagFull_eq]
      rfl
    · rw [countReasons_eq, flagFull_eq]
      rfl
  · intro before l after reasons r k w split found reason known window meets first joined climbs
    have walk : judgeRides s c party ea la labels false [] = .grant r l k reasons := by
      rw [split]
      obtain ⟨tried, walked, free'⟩ := judgeRides_reasons_first (rest := l :: after) (tried := false) (acc := []) found
        (.inr (by rw [← split]; exact free))
      have still : tried = true ∨ look s.walker.displacing r = 0 := free'.imp_right fun all =>
        all l r (List.find?_cons_of_pos (by simp [reason])) known
      rw [walked, judgeRides_searched reason known still, grantWindow_of_first window meets first, List.nil_append]
    refine ⟨_, judgeRequest_granted opens good walk window, fun q => ?_, ?_⟩
    · have counts : (countReasons reasons (flagFull reasons (placeGrant r k c party o s))).management.counts =
          (countReasons reasons s).management.counts := by
        apply table_ext
        intro r'
        rw [look_countReasons, look_countReasons, flagFull_eq, placeGrant_eq window]
        rfl
      show look (upd _ r _) q = _
      rw [counts, look_upd]
      by_cases same : r = q
      · subst same
        rw [if_pos rfl, look_countReasons]
        simp only [if_true]
        rfl
      · rw [if_neg same, look_countReasons]
        simp only [Option.some.injEq, same, if_false]
        rfl
    · obtain ⟨u, flags⟩ : ∃ u, u = flagFull reasons (placeGrant r k c party o s) := ⟨_, rfl⟩
      obtain ⟨m, counts⟩ : ∃ m, countReasons reasons u = { u with management := { u.management with counts := m } } :=
        ⟨_, countReasons_eq reasons u⟩
      rw [← flags, counts, flags, flagFull_eq, placeGrant_eq window]
      rfl

end Sys2Proof.Machine
end

section
/-! PROOFS. PASS_CANCEL and PASS_REVOKE (O49). -/

namespace Sys2Proof.Machine

/-! ## Removal claims (R53) -/

section Claim

variable {c : Credential} {r : Ride} {s : State} {p : Pass} {h : Holder} (pass : passOf c r s.guests = some p)
include pass

theorem removalClaim_window {k : Nat} {w : Window} (place : p.place = .window k) (window : windowOf s r k = some w)
    (holder : holderIn c w.holders = some h) : removalClaim c r s = some (⟨h.party, some w.start⟩,
      { putWindow r k (removeOut h w) s with guests := dropPass c r s.guests }) := by
  simp only [removalClaim, pass, place, window, holder]
  rfl

theorem removalClaim_flex (place : p.place = .flex) (holder : holderIn c (look s.calendar.flex r) = some h) :
    removalClaim c r s = some (⟨h.party, none⟩,
      { changeFlex r (withoutHolder c) s with guests := dropPass c r s.guests }) := by
  simp only [removalClaim, pass, place, holder]
  rfl

end Claim

theorem removalClaim_none {c : Credential} {r : Ride} {s : State} (absent : passOf c r s.guests = none) :
    removalClaim c r s = none := by
  simp only [removalClaim, absent]

/-- R130: a removed pass counts for its ride. -/
def countCancelled (k : RideCounts) : RideCounts := { k with cancelled := countUp k.cancelled 1 }

/-! ## PASS_CANCEL (R71) -/

section Cancel

variable {c : Credential} {l : Label} {s : State}

theorem serveCancel_night (night : inDay s.day.phase = false) : serveCancel c l s = (.phaseClosed, s) := by
  rw [serveCancel, night]
  rfl

variable (day : inDay s.day.phase = true)
include day

theorem serveCancel_unknown (unknown : rideByLabel s l = none) : serveCancel c l s = (.notFound, s) := by
  simp only [serveCancel, day, unknown]
  rfl

variable {r : Ride} (known : rideByLabel s l = some r)
include known

theorem serveCancel_invalid (invalid : validCredential c = false) : serveCancel c l s = (.notFound, s) := by
  simp only [serveCancel, day, known, invalid]
  rfl

theorem serveCancel_absent (absent : passOf c r s.guests = none) : serveCancel c l s = (.notFound, s) := by
  simp only [serveCancel, day, known, removalClaim_none absent, ite_self]
  rfl

theorem serveCancel_removes {x : Removed} {t : State} (valid : validCredential c = true)
    (claim : removalClaim c r s = some (x, t)) :
    serveCancel c l s = (.cancelled l x.party x.start, changeCounts r countCancelled t) := by
  simp only [serveCancel, day, known, valid, claim]
  rfl

end Cancel

/-! ## PASS_REVOKE (R73) -/

section Revoke

variable {c : Credential} {r : Ride} {s : State}

theorem passRevoke_invalid (invalid : validCredential c = false) : passRevoke r.val c s = answered .badValue s := by
  simp only [passRevoke, index?_val, invalid, if_true]

variable (valid : validCredential c = true)
include valid

theorem passRevoke_valid : passRevoke r.val c s =
    if s.day.phase = .checking then answered .busy s
    else if s.day.phase = .night ∨ rideState s r = .off then answered .notFound s
    else match removalClaim c r s with
      | none => answered .notFound s
      | some (x, s1) => ({ result := .done, fields := removedBytes x }, changeCounts r countCancelled s1) := by
  simp only [passRevoke, index?_val, valid, Bool.true_eq_false, if_false] <;> rfl

theorem passRevoke_busy (checking : s.day.phase = .checking) : passRevoke r.val c s = answered .busy s :=
  (passRevoke_valid valid).trans (if_pos checking)

variable (ready : s.day.phase ≠ .checking)
include ready

theorem passRevoke_nothing (nothing : s.day.phase = .night ∨ (look s.rides r).state = .off ∨ passOf c r s.guests = none) :
    passRevoke r.val c s = answered .notFound s := by
  refine (passRevoke_valid valid).trans ((if_neg ready).trans ?_)
  by_cases out : s.day.phase = .night ∨ rideState s r = .off
  · exact if_pos out
  · have absent : passOf c r s.guests = none := by
      rcases nothing with night | off | absent
      · exact absurd (.inl night) out
      · exact absurd (.inr off) out
      · exact absent
    rw [if_neg out, removalClaim_none absent]

theorem passRevoke_removes {x : Removed} {t : State} (day : s.day.phase ≠ .night) (on : (look s.rides r).state ≠ .off)
    (claim : removalClaim c r s = some (x, t)) : passRevoke r.val c s =
      ({ result := .done, fields := removedBytes x }, changeCounts r countCancelled t) := by
  refine (passRevoke_valid valid).trans ((if_neg ready).trans ((if_neg (not_or.2 ⟨day, on⟩)).trans ?_))
  rw [claim]

end Revoke

/-- Settles O49: both commands make the removal claim after their checks. -/
theorem passesRemoved : Obligations.PassesRemoved := by
  unfold Obligations.PassesRemoved
  intro removal
  have claims {s u : State} {c : Credential} {r : Ride} {party : Nat} {start : Option Nat}
      (removed : removal s u c r party start) :
      ∃ t, removalClaim c r s = some (⟨party, start⟩, t) ∧ u = changeCounts r countCancelled t := by
    rcases removed with ⟨p, k, w, h, pass, place, window, holder, rfl, rfl, result⟩ |
      ⟨p, h, pass, place, holder, rfl, rfl, result⟩
    · obtain rfl := holderIn_credential holder
      exact ⟨_, removalClaim_window pass place window holder, result⟩
    · exact ⟨_, removalClaim_flex pass place holder, result⟩
  refine ⟨fun o q rest c l s head body => ?_, fun e rest index c s head command => ?_⟩
  · intro s1
    have dayKept : s1.day = s.day := setQueue_day ..
    have guests : s1.guests = s.guests := setQueue_guests ..
    have labels : rideByLabel s1 l = rideByLabel s l := by cases o <;> rfl
    have serves {x : PassResult} {t : State} (served : serveCancel c l s1 = (x, t)) :
        exec .passCancel s = .next (replyFromQueue o q x t) := by
      rw [exec_passCancel_of_head head body, show serveCancel c l (setQueue (portOfOrigin o) rest s) = _ from served]
    refine ⟨fun night => serves (serveCancel_night (by rw [dayKept]; exact night)), fun day nothing => ?_,
      fun r party start u day known notZero notOnes removed => ?_⟩
    · have isDay : inDay s1.day.phase = true := by rw [dayKept]; exact day
      refine serves ?_
      cases found : rideByLabel s1 l with
      | none => exact serveCancel_unknown isDay found
      | some r =>
        rw [← labels, ← guests, found] at nothing
        rcases nothing with unknown | zero | ones | ⟨r', known, absent⟩
        · cases unknown
        · exact serveCancel_invalid isDay found (validCredential_eq_false (.inl zero))
        · exact serveCancel_invalid isDay found (validCredential_eq_false (.inr ones))
        · obtain rfl := Option.some.inj known
          exact serveCancel_absent isDay found absent
    · obtain ⟨t, claim, rfl⟩ := claims removed
      exact serves (serveCancel_removes (by rw [dayKept]; exact day) (labels.trans known)
        (validCredential_eq_true notZero notOnes) claim)
  · intro s1 answers
    have answer {x : Answer × State} (acts : passRevoke index c s1 = x) :
        exec .passRevoke s = .next (mgmtFinish [mgmtReply e 0x10 x.1] x.2) := exec_passRevoke_of_head head command acts
    refine ⟨fun beyond => answer (x := answered .badIndex s1) (by rw [passRevoke, index?_beyond beyond]), fun r here => ?_⟩
    subst here
    refine ⟨fun invalid => answer (passRevoke_invalid (validCredential_eq_false invalid)), fun notZero notOnes => ?_⟩
    have valid := validCredential_eq_true notZero notOnes
    refine ⟨fun checking => answer (passRevoke_busy valid (s := s1) checking),
      fun ready nothing => answer (passRevoke_nothing valid (s := s1) ready nothing),
      fun party start u day on removed => ?_⟩
    obtain ⟨t, claim, rfl⟩ := claims removed
    obtain ⟨ready, notNight⟩ := inDay_phase day
    exact answer (passRevoke_removes valid (s := s1) ready notNight on claim)

end Sys2Proof.Machine
end

section
/-! PROOFS. Reading a received frame: numbers, the header, the kinds and their lengths (towards O51). -/

namespace Sys2Proof.Machine

/-! ## Numbers (R199) -/

section Numbers

variable (bs : List Byte) (i k : Nat)

theorem byteAt_drop : byteAt (bs.drop k) i = byteAt bs (k + i) := by
  rw [byteAt, byteAt, List.getD_eq_getElem?_getD, List.getD_eq_getElem?_getD, List.getElem?_drop]

theorem num1_drop : num1 (bs.drop k) i = num1 bs (k + i) := by rw [num1, num1, byteAt_drop]

theorem word2_drop : word2 (bs.drop k) i = word2 bs (k + i) := by
  rw [word2, word2, byteAt_drop, byteAt_drop, Nat.add_assoc]

theorem num2_drop : num2 (bs.drop k) i = num2 bs (k + i) := by rw [num2, num2, word2_drop]

theorem toNat_append_byte {n : Nat} (x : BitVec n) (y : Byte) : (x ++ y).toNat = 256 * x.toNat + y.toNat := by
  rw [BitVec.toNat_append, Nat.shiftLeft_eq, Nat.mul_comm, ← Nat.two_pow_add_eq_or_of_lt y.isLt]

theorem num2_eq : num2 bs i = 256 * num1 bs i + num1 bs (i + 1) := toNat_append_byte ..

theorem toNat_cred6 : (cred6 bs i).toNat = 4294967296 * num2 bs i + 65536 * num2 bs (i + 2) + num2 bs (i + 4) := by
  simp only [cred6, toNat_append_byte, num2_eq, num1, Nat.add_assoc, Nat.reduceAdd]
  omega

end Numbers

/-! ## Numbers as they are sent -/

theorem toNat_byte (n : Nat) : (BitVec.ofNat 8 n).toNat = n % 256 := BitVec.toNat_ofNat ..

theorem toNat_bytes (n : Nat) : (BitVec.ofNat 8 (n / 256) ++ BitVec.ofNat 8 n).toNat = n % 65536 := by
  rw [toNat_append_byte, toNat_byte, toNat_byte]
  omega

theorem bytes_word (w : BitVec 16) : BitVec.ofNat 8 (w.toNat / 256) ++ BitVec.ofNat 8 w.toNat = w := by
  apply BitVec.eq_of_toNat_eq
  rw [toNat_bytes]
  exact Nat.mod_eq_of_lt w.isLt

theorem bytes_cred (c : Credential) (rest : List Byte) : cred6 (encCred c ++ rest) 0 = c := by
  apply BitVec.eq_of_toNat_eq
  have below : c.toNat < 281474976710656 := c.isLt
  show (BitVec.ofNat 8 (c.toNat / 16777216 / 65536) ++ BitVec.ofNat 8 (c.toNat / 16777216 / 256) ++
    BitVec.ofNat 8 (c.toNat / 16777216) ++ BitVec.ofNat 8 (c.toNat / 65536) ++ BitVec.ofNat 8 (c.toNat / 256) ++
    BitVec.ofNat 8 c.toNat).toNat = _
  simp only [toNat_append_byte, toNat_byte]
  omega

/-! ## Kinds (R198) -/

theorem kindOf_eq_some {code : Nat} {k : Kind} : kindOf code = some k ↔ (code, k) ∈ kindCodes := by
  have listed : ∀ x ∈ kindCodes, kindOf x.1 = some x.2 := by decide
  refine ⟨fun found => ?_, fun member => listed (code, k) member⟩
  unfold kindOf at found
  split at found <;> cases found <;> decide

/-! ## Lengths (R200, R201, R203) -/

theorem passReplyLength_iff (body : List Byte) : body.length = passReplyLength body ↔ fitsLayout .passReply body := by
  rw [fitsLayout, passReplyLength]
  split
  all_goals simp_all

theorem commandFieldsLength_eq_some {body : List Byte} {n : Nat} : commandFieldsLength body = some n ↔ (num1 body 0, n) ∈
    [(0x01, 2), (0x02, 4 + num1 body 7), (0x03, 4 + 3 * num1 body 7), (0x04, 0), (0x05, 1), (0x06, 0), (0x07, 3), (0x08, 1),
     (0x09, 2), (0x0A, 2), (0x0B, 4), (0x0C, 2), (0x0D, 2), (0x0E, 3), (0x0F, 7), (0x10, 7), (0x11, 0)] := by
  rw [commandFieldsLength]
  generalize num1 body 0 = code
  split
  case h_18 => simp_all
  all_goals simp [eq_comm]

theorem mgmtReplyLengthOk_iff (body : List Byte) : mgmtReplyLengthOk body = true ↔ fitsLayout .mgmtReply body := by
  rw [fitsLayout, mgmtReplyLengthOk]
  split
  · next done =>
    simp only [done, ne_eq, not_true_eq_false, false_and, true_and, false_or, replyFieldsFit, List.length_drop, num1_drop]
    split <;> simp_all <;> omega
  · next other => simp [other]

theorem lengthOk_iff (k : Kind) (body : List Byte) : lengthOk k body = true ↔ fitsLayout k body := by
  cases k with
  | passReply => exact beq_iff_eq.trans (passReplyLength_iff body)
  | mgmtReply => exact mgmtReplyLengthOk_iff body
  | mgmtCommand =>
    rw [lengthOk, fitsLayout]
    simp only [← commandFieldsLength_eq_some]
    cases commandFieldsLength body <;> simp
  | tap | verdict | dispatch | rideStatus | passRequest | passCancel | passList | passChange | boardFrame | notice =>
    exact beq_iff_eq

end Sys2Proof.Machine
end

section
/-! PROOFS. The Classifier's reading of a frame, of requests and of management commands, and the frames that the part writes
(O51). -/

namespace Sys2Proof.Machine

/-! ## The header (R196, R197) -/

/-- A frame is a well-formed queue-net frame of a kind. -/
def FrameFits (f : Frame) (k : Kind) : Prop :=
  num1 f 14 = 1 ∧ (num1 f 15, k) ∈ kindCodes ∧ 22 + num2 f 16 ≤ f.length ∧ fitsLayout k ((f.drop 22).take (num2 f 16))

section Examine

variable {f : Frame}

theorem examine_foreign (other : word2 f 12 ≠ 0x88B6) : examine f = .foreign := if_pos other

/-- The reading of a queue-net frame, at the offsets of the whole frame. -/
theorem examine_net (net : word2 f 12 = 0x88B6) : examine f =
    if num1 f 14 ≠ 1 then .malformed
    else match kindOf (num1 f 15) with
      | none => .malformed
      | some k =>
        if ((f.drop 22).take (num2 f 16)).length = num2 f 16 ∧ lengthOk k ((f.drop 22).take (num2 f 16)) = true then
          .queueNet (word2 f 18) (word2 f 20) k ((f.drop 22).take (num2 f 16))
        else .malformed := by
  rw [examine, if_neg (not_not_intro net)]
  simp only [num1_drop, num2_drop, word2_drop, List.drop_drop, Nat.reduceAdd] <;> rfl

theorem not_fitsLayout_nil (k : Kind) : ¬fitsLayout k [] := by
  rw [← lengthOk_iff]
  cases k <;> decide

/-- The body is whole where its length fits. -/
theorem body_fits_iff {k : Kind} {n : Nat} : ((f.drop 22).take n).length = n ∧ lengthOk k ((f.drop 22).take n) = true ↔
    22 + n ≤ f.length ∧ fitsLayout k ((f.drop 22).take n) := by
  rw [lengthOk_iff, List.length_take, List.length_drop]
  refine and_congr_left fun fits => ?_
  have nonzero : n ≠ 0 := by
    rintro rfl
    rw [List.take_zero] at fits
    exact not_fitsLayout_nil k fits
  omega

theorem examine_fits {k : Kind} (net : word2 f 12 = 0x88B6) (fits : FrameFits f k) :
    examine f = .queueNet (word2 f 18) (word2 f 20) k ((f.drop 22).take (num2 f 16)) := by
  obtain ⟨version, kind, whole, layout⟩ := fits
  rw [examine_net net, if_neg (not_not_intro version), kindOf_eq_some.2 kind]
  exact if_pos (body_fits_iff.2 ⟨whole, layout⟩)

theorem examine_malformed (net : word2 f 12 = 0x88B6) (never : ∀ k, ¬FrameFits f k) : examine f = .malformed := by
  rw [examine_net net]
  split
  · rfl
  · next version =>
    rw [not_not] at version
    cases kind : kindOf (num1 f 15) with
    | none => rfl
    | some k =>
      refine if_neg fun body => ?_
      obtain ⟨whole, layout⟩ := body_fits_iff.1 body
      exact never k ⟨version, kindOf_eq_some.1 kind, whole, layout⟩

end Examine

/-! ## Requests and management commands (R200, R201) -/

section Fields

variable (p : Port) (src : Addr) (body : List Byte)

theorem getLsbD_byte (b : Byte) (i : Nat) : b.getLsbD i = true ↔ b.toNat / 2 ^ i % 2 = 1 := by
  rw [BitVec.getLsbD, Nat.testBit_eq_decide_div_mod_eq, decide_eq_true_iff]

theorem requestOf_pass : requestOf p src .passRequest body =
    some ⟨p, src, word2 body 14, .pass (cred6 body 0) (num1 body 6) (num1 body 7)
      ((List.range (min (num1 body 7) 3)).map fun i => word2 body (16 + 2 * i))
      (if num1 body 8 % 2 = 1 then some (num2 body 10) else none)
      (if num1 body 8 / 2 % 2 = 1 then some (num2 body 12) else none)⟩ := by
  have first : (byteAt body 8).getLsbD 0 = true ↔ num1 body 8 % 2 = 1 := by
    rw [getLsbD_byte, Nat.pow_zero, Nat.div_one]
    rfl
  have second : (byteAt body 8).getLsbD 1 = true ↔ num1 body 8 / 2 % 2 = 1 := getLsbD_byte ..
  simp only [requestOf, passRequestFields, first, second]

theorem requestOf_other {k : Kind} (other : k ∉ [Kind.passRequest, .passCancel, .passList]) :
    requestOf p src k body = none := by
  cases k with
  | passRequest | passCancel | passList => exact absurd (by decide) other
  | tap | verdict | dispatch | rideStatus | passReply | passChange | boardFrame | notice | mgmtCommand | mgmtReply => rfl

theorem toInt_byte (b : Byte) : b.toInt = if b.toNat < 128 then (b.toNat : Int) else (b.toNat : Int) - 256 := by
  rw [BitVec.toInt_eq_toNat_cond]
  have below := b.isLt
  split <;> split <;> omega

end Fields

/-! ## The frames that the part writes (R196, R197) -/

section Wire

variable {node dst : Addr} {m : OutMessage} {code : Nat} {body : List Byte}

/-- R196, R197: the 22 bytes before the body. -/
def wireHeader (node dst : Addr) (code length : Nat) : List Byte :=
  List.replicate 6 0xFF ++ [0x02, 0x5A, 0x38, 0x24] ++ encWord node ++ [0x88, 0xB6] ++ enc1 1 ++ enc1 code ++
    enc2 length ++ encWord dst ++ encWord node

theorem laidOut_header (node dst : Addr) (code length : Nat) :
    laidOut [(6, 0xFFFFFFFFFFFF), (4, 0x025A3824), (2, node.toNat), (2, 0x88B6), (1, 1), (1, code), (2, length),
      (2, dst.toNat), (2, node.toNat)] = wireHeader node dst code length := by
  have six : bigEndian 6 0xFFFFFFFFFFFF = List.replicate 6 0xFF := by decide
  have four : bigEndian 4 0x025A3824 = [0x02, 0x5A, 0x38, 0x24] := by decide
  have two : enc2 0x88B6 = [0x88, 0xB6] := by decide
  rw [laidOut_cons, laidOut_cons, six, four]
  simp only [laidOut_two, laidOut_one, laidOut_nil, two, wireHeader, encWord, List.append_assoc, List.append_nil]

theorem frameOf_eq (node dst : Addr) (code : Nat) (body : List Byte) : frameOf node dst code body =
    wireHeader node dst code body.length ++ (body ++ List.replicate (60 - (22 + body.length)) 0) := by
  rw [frameOf, laidOut_header, List.append_assoc]

theorem wireBytes_eq (message : messageBytes m = (code, body)) :
    wireBytes node ⟨dst, m⟩ = frameOf node dst code body := by
  have written : wireBytes node ⟨dst, m⟩ = padded (wireHeader node dst code body.length ++ body) := by
    rw [wireBytes, message]
    rfl
  have length : (wireHeader node dst code body.length ++ body).length = 22 + body.length := by
    rw [List.length_append]
    rfl
  rw [written, padded, length, frameOf_eq, List.append_assoc]

section FrameOf

variable {k : Kind} (kind : (code, k) ∈ kindCodes) (short : body.length < 65536) (fits : fitsLayout k body)
include kind short fits

/-- R162, R197: a frame with a body that fits its kind is read back. -/
theorem examine_frameOf : examine (frameOf node dst code body) = .queueNet dst node k body := by
  have small : code < 256 := (by decide : ∀ x ∈ kindCodes, x.1 < 256) (code, k) kind
  obtain ⟨f, frame⟩ : ∃ f, f = frameOf node dst code body := ⟨_, rfl⟩
  have split : f = wireHeader node dst code body.length ++ (body ++ List.replicate (60 - (22 + body.length)) 0) :=
    frame.trans (frameOf_eq ..)
  have net : word2 f 12 = 0x88B6 := by
    rw [split]
    exact (by decide : (0x88 : Byte) ++ (0xB6 : Byte) = (0x88B6 : BitVec 16))
  have version : num1 f 14 = 1 := by rw [split]; rfl
  have codeRead : num1 f 15 = code := by
    rw [split]
    exact (toNat_byte code).trans (Nat.mod_eq_of_lt small)
  have lengthRead : num2 f 16 = body.length := by
    rw [split]
    exact (toNat_bytes body.length).trans (Nat.mod_eq_of_lt short)
  have dstRead : word2 f 18 = dst := by rw [split]; exact bytes_word dst
  have nodeRead : word2 f 20 = node := by rw [split]; exact bytes_word node
  have length : f.length = 22 + (body ++ List.replicate (60 - (22 + body.length)) (0 : Byte)).length := by
    rw [split, List.length_append]
    rfl
  have bodyRead : (f.drop 22).take (num2 f 16) = body := by
    have behind : f.drop 22 = body ++ List.replicate (60 - (22 + body.length)) 0 := by rw [split]; rfl
    rw [behind, lengthRead, List.take_left]
  have all : FrameFits f k := by
    refine ⟨version, codeRead.symm ▸ kind, ?_, bodyRead.symm ▸ fits⟩
    rw [length, lengthRead, List.length_append]
    omega
  rw [← frame, examine_fits net all, dstRead, nodeRead, bodyRead]

/-- A message is read back, whatever node writes it. -/
theorem wire_readBack (message : messageBytes m = (code, body)) :
    examine (wireBytes node ⟨dst, m⟩) = .queueNet dst node k body ∧ 60 ≤ (wireBytes node ⟨dst, m⟩).length ∧
      ∃ code, (code, k) ∈ kindCodes ∧ wireBytes node ⟨dst, m⟩ = frameOf node dst code body := by
  refine ⟨?_, ?_, code, kind, wireBytes_eq message⟩
  · rw [wireBytes_eq message, examine_frameOf kind short fits]
  · rw [wireBytes_eq message, frameOf_eq]
    simp only [List.length_append, List.length_replicate]
    have header : (wireHeader node dst code body.length).length = 22 := rfl
    omega

end FrameOf

end Wire

end Sys2Proof.Machine
end

section
/-! PROOFS. The bodies of the messages that the part writes, and how they are read back (O51). -/

namespace Sys2Proof.Machine

/-! ## Bodies item by item (R200) -/

theorem laidOut_listed (x : ListedPass) : laidOut [(2, x.label.toNat), (1, x.party), (1, listedCode x.state),
    (2, x.span.elim 0 Prod.fst), (2, x.span.elim 0 Prod.snd)] = listedBytes x := by
  simp only [laidOut_two, laidOut_one, laidOut_nil, listedBytes, encWord, List.append_assoc, List.append_nil]

theorem laidOut_boardLine (x : BoardLine) : laidOut [(2, x.label.toNat),
    (1, postedCode x.value + if x.alert then 128 else 0), (1, postedMinutes x.value)] = boardLineBytes x := by
  simp only [laidOut_two, laidOut_one, laidOut_nil, boardLineBytes, encWord, List.append_assoc, List.append_nil]

theorem laidOut_reasons (rs : List Reason) :
    laidOut (rs.map fun x => (1, reasonCode x)) = rs.flatMap fun r => enc1 (reasonCode r) := by
  simp only [laidOut_map, bigEndian_one]

theorem length_reasons (rs : List Reason) : (rs.flatMap fun r => enc1 (reasonCode r)).length = rs.length :=
  (length_flatMap_const (n := 1) rs _ fun _ => rfl).trans (by omega)

theorem length_listed (xs : List ListedPass) : (xs.flatMap listedBytes).length = 8 * xs.length :=
  (length_flatMap_const (n := 8) xs _ fun _ => rfl).trans (by omega)

theorem length_boardLines (xs : List BoardLine) : (xs.flatMap boardLineBytes).length = 4 * xs.length :=
  (length_flatMap_const (n := 4) xs _ fun _ => rfl).trans (by omega)

/-! ## PASS_REPLY -/

/-- R200: a PASS_REPLY's items, by its result. -/
def passReplyItems (tag : Tag) (result : PassResult) : List (Nat × Nat) :=
  match result with
  | .grant label party start stop earlier =>
    [(1, 1), (1, earlier.length), (2, tag.toNat), (2, label.toNat), (1, party), (1, 0), (2, start), (2, stop)] ++
      earlier.map fun x => (1, reasonCode x)
  | .refused reasons => [(1, 2), (1, reasons.length), (2, tag.toNat)] ++ reasons.map fun x => (1, reasonCode x)
  | .retry => [(1, 3), (1, 0), (2, tag.toNat)]
  | .queueFull => [(1, 4), (1, 0), (2, tag.toNat)]
  | .phaseClosed => [(1, 5), (1, 0), (2, tag.toNat)]
  | .badRequest => [(1, 6), (1, 0), (2, tag.toNat)]
  | .listed passes => [(1, 7), (1, passes.length), (2, tag.toNat)] ++ passes.flatMap fun x =>
      [(2, x.label.toNat), (1, x.party), (1, listedCode x.state), (2, x.span.elim 0 Prod.fst),
       (2, x.span.elim 0 Prod.snd)]
  | .cancelled label party start => [(1, 8), (1, 0), (2, tag.toNat), (2, label.toNat), (1, party),
      yesOr start.isNone, (2, start.getD 0)]
  | .notFound => [(1, 9), (1, 0), (2, tag.toNat)]

theorem passReplyBody_eq (tag : Tag) (result : PassResult) :
    passReplyBody tag result = laidOut (passReplyItems tag result) := by
  cases result with
  | listed passes =>
    rw [passReplyItems, laidOut_append, laidOut_flatMap, funext laidOut_listed]
    simp only [passReplyBody, laidOut_two, laidOut_one, laidOut_nil, encWord, List.append_assoc, List.append_nil]
  | grant | refused | retry | queueFull | phaseClosed | badRequest | cancelled | notFound =>
    simp only [passReplyItems, passReplyBody, laidOut_reasons, laidOut_two, laidOut_one, laidOut_yes,
      laidOut_nil, encWord, List.append_assoc, List.append_nil, List.nil_append, List.cons_append]

theorem passReplyBody_tag (tag : Tag) (result : PassResult) : word2 (passReplyBody tag result) 2 = tag := by
  cases result <;> exact bytes_word tag

/-- A PASS_REPLY that carries nothing but its tag. -/
theorem plainReply_fits (tag : Tag) {code : Nat} (small : code < 256) (other : code ∉ [1, 2, 7, 8]) :
    fitsLayout .passReply (enc1 code ++ enc1 0 ++ encWord tag) := by
  have codeRead : num1 (enc1 code ++ enc1 0 ++ encWord tag) 0 = code := (toNat_byte code).trans (Nat.mod_eq_of_lt small)
  exact .inr (.inr (.inr (.inr ⟨by rw [codeRead]; exact other, rfl⟩)))

/-- A PASS_REPLY's body has the length of its result. -/
theorem passReplyBody_fits (tag : Tag) (result : PassResult)
    (earlier : ∀ l p a b rs, result = .grant l p a b rs → rs.length < 256)
    (reasons : ∀ rs, result = .refused rs → rs.length < 256) (passes : ∀ ps, result = .listed ps → ps.length < 256) :
    fitsLayout .passReply (passReplyBody tag result) ∧ (passReplyBody tag result).length < 65536 := by
  cases result with
  | grant l p a b rs =>
    have few := earlier l p a b rs rfl
    have count : num1 (passReplyBody tag (.grant l p a b rs)) 1 = rs.length :=
      (toNat_byte rs.length).trans (Nat.mod_eq_of_lt few)
    have length : (passReplyBody tag (.grant l p a b rs)).length = 12 + rs.length := by
      rw [passReplyBody, List.length_append, length_reasons]
      rfl
    exact ⟨.inl ⟨rfl, by rw [length, count]⟩, by omega⟩
  | refused rs =>
    have few := reasons rs rfl
    have count : num1 (passReplyBody tag (.refused rs)) 1 = rs.length :=
      (toNat_byte rs.length).trans (Nat.mod_eq_of_lt few)
    have length : (passReplyBody tag (.refused rs)).length = 4 + rs.length := by
      rw [passReplyBody, List.length_append, length_reasons]
      rfl
    exact ⟨.inr (.inl ⟨rfl, by rw [length, count]⟩), by omega⟩
  | listed ps =>
    have few := passes ps rfl
    have count : num1 (passReplyBody tag (.listed ps)) 1 = ps.length :=
      (toNat_byte ps.length).trans (Nat.mod_eq_of_lt few)
    have length : (passReplyBody tag (.listed ps)).length = 4 + 8 * ps.length := by
      rw [passReplyBody, List.length_append, length_listed]
      rfl
    exact ⟨.inr (.inr (.inl ⟨rfl, by rw [length, count]⟩)), by omega⟩
  | cancelled l p start => exact ⟨.inr (.inr (.inr (.inl ⟨rfl, rfl⟩))), (by decide : 10 < 65536)⟩
  | retry | queueFull | phaseClosed | badRequest | notFound =>
    exact ⟨plainReply_fits tag (by decide) (by decide), (by decide : 4 < 65536)⟩

/-! ## Board frames -/

theorem boardBody_eq (content : BoardContent) : boardBody content = laidOut (match content with
    | .blank => [(1, 1), (1, 0)]
    | .lines ls => [(1, 0), (1, ls.length)] ++ ls.flatMap fun x =>
        [(2, x.label.toNat), (1, postedCode x.value + if x.alert then 128 else 0), (1, postedMinutes x.value)]) := by
  cases content with
  | blank => simp only [boardBody, laidOut_one, laidOut_nil, List.append_nil]
  | lines ls =>
    rw [laidOut_append, laidOut_flatMap, funext laidOut_boardLine]
    simp only [boardBody, laidOut_one, laidOut_nil, List.append_assoc, List.append_nil]

theorem boardBody_fits (content : BoardContent) (few : ∀ ls, content = .lines ls → ls.length < 256) :
    fitsLayout .boardFrame (boardBody content) ∧ (boardBody content).length < 65536 := by
  cases content with
  | blank => exact ⟨rfl, (by decide : 2 < 65536)⟩
  | lines ls =>
    have few := few ls rfl
    have count : num1 (boardBody (.lines ls)) 1 = ls.length := (toNat_byte ls.length).trans (Nat.mod_eq_of_lt few)
    have length : (boardBody (.lines ls)).length = 2 + 4 * ls.length := by
      rw [boardBody, List.length_append, length_boardLines]
      rfl
    exact ⟨by rw [fitsLayout, length, count], by omega⟩

/-! ## MGMT_REPLY -/

/-- R203: the body of a MGMT_REPLY. -/
def mgmtReplyBody (code : Nat) (x : MgmtResult) (sequence : BitVec 16) (ignored : Bool) (fields : List Byte) : List Byte :=
  enc1 code ++ enc1 (mgmtResultCode x) ++ encWord sequence ++ encBool ignored ++ enc1 0 ++ fields

theorem length_mgmtReplyBody (code : Nat) (x : MgmtResult) (sequence : BitVec 16) (ignored : Bool) (fields : List Byte) :
    (mgmtReplyBody code x sequence ignored fields).length = 6 + fields.length := by
  rw [mgmtReplyBody, List.length_append]
  rfl

theorem mgmtReplyBody_fits {code : Nat} {x : MgmtResult} {fields : List Byte} (sequence : BitVec 16) (ignored : Bool)
    (small : code < 256) (plain : x ≠ .done → fields = []) (fit : x = .done → replyFieldsFit code fields) :
    fitsLayout .mgmtReply (mgmtReplyBody code x sequence ignored fields) := by
  have length := length_mgmtReplyBody code x sequence ignored fields
  by_cases done : x = .done
  · have codeRead : num1 (mgmtReplyBody code x sequence ignored fields) 0 = code :=
      (toNat_byte code).trans (Nat.mod_eq_of_lt small)
    refine .inr ⟨by rw [done]; rfl, by omega, ?_⟩
    rw [codeRead]
    exact fit done
  · refine .inl ⟨?_, by rw [length, plain done]; rfl⟩
    show (BitVec.ofNat 8 (mgmtResultCode x)).toNat ≠ 1
    cases x with
    | done => exact absurd rfl done
    | accepted | busy | locked | refusedPhase | badIndex | badValue | notFound | clockUnset => decide

/-! ## Management commands (R201) -/

/-- The commands by their codes, with the fields that they carry. -/
theorem entryOf_of_code (src : Addr) (body : List Byte) :
    ∀ x ∈ [(0x01, MgmtCommand.statusRead (num1 body 4) (num1 body 5)),
        (0x02, .tableRead (num1 body 4) (num2 body 5) ((List.range (num1 body 7)).map fun i => num1 body (8 + i))),
        (0x03, .tableWrite (num1 body 4) (num2 body 5)
          ((List.range (num1 body 7)).map fun i => (num1 body (8 + 3 * i), num2 body (9 + 3 * i)))),
        (0x04, .dayOpen), (0x05, .phaseSet (num1 body 4)), (0x06, .dayClose),
        (0x07, .clockSet (num1 body 4) (num1 body 5) (num1 body 6)),
        (0x08, .clockTrim (if num1 body 4 < 128 then num1 body 4 else (num1 body 4 : Int) - 256)),
        (0x09, .rideOverride (num1 body 4) (num1 body 5)), (0x0A, .boardMode (num1 body 4) (num1 body 5)),
        (0x0B, .noticeSet (word2 body 4) (word2 body 6)), (0x0C, .noticeClear (word2 body 4)),
        (0x0D, .countsRead (num1 body 4) (num1 body 5)), (0x0E, .calendarRead (num1 body 4) (num1 body 5) (num1 body 6)),
        (0x0F, .guestRead (num1 body 4) (cred6 body 5)), (0x10, .passRevoke (num1 body 4) (cred6 body 5)),
        (0x11, .softReset)],
      num1 body 0 = x.1 → entryOf src body = some ⟨src, word2 body 2, x.2⟩ := by
  have trim : (byteAt body 4).toInt = if num1 body 4 < 128 then (num1 body 4 : Int) else (num1 body 4 : Int) - 256 :=
    toInt_byte _
  simp only [List.forall_mem_cons, List.not_mem_nil, false_implies, implies_true, and_true, entryOf, commandOf]
  refine ⟨?_, ?_, ?_, ?_, ?_, ?_, ?_, ?_, ?_, ?_, ?_, ?_, ?_, ?_, ?_, ?_, ?_⟩
  all_goals
    intro code
    simp only [code, trim, Option.map_some]

theorem entryOf_other (src : Addr) (body : List Byte) (other : num1 body 0 = 0 ∨ 0x11 < num1 body 0) :
    entryOf src body = none := by
  have unknown : commandOf body = none := by
    unfold commandOf
    split
    case h_18 => rfl
    all_goals
      next code =>
        rw [code] at other
        exact absurd other (by decide)
  rw [entryOf, unknown]
  rfl

/-- Settles O51: every message is read back from its frame; the codes; the reading of a frame, of numbers, of requests and of
commands. -/
theorem framesRoundTrip : Obligations.FramesRoundTrip := by
  unfold Obligations.FramesRoundTrip
  refine ⟨fun node dst => ?messages, ⟨rfl, rfl, rfl, rfl, fun m => ⟨rfl, rfl⟩, rfl⟩, fun f => ?frame,
    fun body i => ⟨rfl, num2_eq body i, rfl, toNat_cred6 body i⟩, fun p src body => ?fields⟩
  case messages =>
    intro readBack
    refine ⟨fun label result party minutes tag => ?_, fun tag result earlier reasons passes => ?_,
      fun c label party reason start target moves => ?_, fun content few => ?_, fun flags => ?_,
      fun code x sequence ignored fields small short plain fit => ?_⟩
    · refine ⟨_, wire_readBack (by decide) ?_ ?_ rfl, ?_, bytes_word label, ?_, toNat_byte _,
        toNat_bytes _, bytes_word tag⟩
      · exact (by decide : 8 < 65536)
      · rfl
      · simp only [laidOut_two, laidOut_one, laidOut_nil, encWord, List.append_assoc, List.append_nil]
      · cases result <;> rfl
    · obtain ⟨fits, short⟩ := passReplyBody_fits tag result earlier reasons passes
      refine ⟨_, wire_readBack (by decide) short fits rfl, passReplyBody_tag tag result, ?_⟩
      rw [passReplyBody_eq]
      cases result <;> rfl
    · refine ⟨_, wire_readBack (by decide) ?_ ?_ rfl, ?_, bytes_cred c [], bytes_word label,
        toNat_byte _, ?_, toNat_bytes _, toNat_bytes _, toNat_bytes _, toNat_byte _⟩
      · exact (by decide : 18 < 65536)
      · rfl
      · simp only [laidOut_six, laidOut_two, laidOut_one, laidOut_nil, encCred, encWord, List.append_assoc, List.append_nil]
      · cases reason <;> rfl
    · obtain ⟨fits, short⟩ := boardBody_fits content few
      exact ⟨_, wire_readBack (by decide) short fits rfl, boardBody_eq content⟩
    · refine ⟨_, wire_readBack (by decide) ?_ ?_ rfl, ?_, ?_⟩
      · exact (by decide : 4 < 65536)
      · rfl
      · have below : flags.toNat < 4096 := flags.isLt
        exact (toNat_bytes flags.toNat).trans (Nat.mod_eq_of_lt (by omega))
      · simp only [laidOut_two, laidOut_nil, encFlags, List.append_nil]
    · refine ⟨mgmtReplyBody code x sequence ignored fields,
        wire_readBack (by decide) (by rw [length_mgmtReplyBody]; omega)
          (mgmtReplyBody_fits sequence ignored small plain fit) rfl, ?_,
        (toNat_byte code).trans (Nat.mod_eq_of_lt small), ?_, bytes_word sequence⟩
      · simp only [laidOut_two, laidOut_one, laidOut_yes, laidOut_nil, mgmtReplyBody, encWord, List.append_assoc,
          List.append_nil]
      · cases x <;> rfl
  case frame =>
    intro n body fits
    exact ⟨examine_foreign, fun net => ⟨fun k fit => examine_fits net fit, fun never => examine_malformed net never⟩⟩
  case fields =>
    exact ⟨requestOf_pass p src body, rfl, rfl, fun k => requestOf_other p src body, entryOf_of_code src body,
      entryOf_other src body⟩

end Sys2Proof.Machine
end
